-- ==== Sys2Proof/Word.lean ====
section
/-! DEFINITION. The words of the block: the four widths the spec names (00_scope.md R8, R9) and zero extension, the only
change of width a rule asks for. -/

namespace Sys2Proof

/-- 8-bit bytes, destinations, ids and indexes (R9). -/
abbrev Byte := BitVec 8

/-- 16-bit CRC values, payload lengths and credits (R9). -/
abbrev Half := BitVec 16

/-- 32-bit host-interface registers, buffer addresses, lengths and counters (R9, R21). -/
abbrev Word := BitVec 32

/-- `zext_32(v)` of R8. -/
abbrev zext32 {n : Nat} (v : BitVec n) : Word := v.setWidth 32

end Sys2Proof
end

