-- ==== Sys2Proof/Syntax.lean ====
section
/-! DEFINITION. The 16 commands of 30_encoding.md R83, one constructor per row of the opcode table. An operand's type is
the operand's field at its width (R87): a byte of the command word, `CMD[16]` as one bit, `CMD[18:16]` as three. The ARG
operands are registers of the state, no part of the command word (R80). -/

namespace Sys2Proof

/-- A command. Operands come in the order `F1`, then `F2` or the low bits of `F2` (R90). -/
inductive Instr where
  /-- CHAR_ENC d (R114). -/
  | charEnc (d : Byte)
  /-- CHAR_DEC b, p (R115). -/
  | charDec (b : Byte) (p : BitVec 1)
  /-- CRC16 (R133). -/
  | crc16
  /-- FRAME_SIZE (R151). -/
  | frameSize
  /-- FRAME_ENC t, i (R152). -/
  | frameEnc (t i : Byte)
  /-- FRAME_DEC (R155). -/
  | frameDec
  /-- RTR_INIT a, n (R181). -/
  | rtrInit (a n : Byte)
  /-- RTR_ADD_ROUTE e, o (R183). -/
  | rtrAddRoute (e o : Byte)
  /-- RTR_OPEN_CH c (R185). -/
  | rtrOpenCh (c : Byte)
  /-- RTR_ROUTE t (R187). -/
  | rtrRoute (t : Byte)
  /-- RTR_READ_ROUTE e (R189). -/
  | rtrReadRoute (e : Byte)
  /-- RTR_READ_CFG (R190). -/
  | rtrReadCfg
  /-- VC_READ c (R191). -/
  | vcRead (c : Byte)
  /-- LINK_INIT q, k (R221). -/
  | linkInit (q : Byte) (k : BitVec 1)
  /-- LINK_SET_STATE q, s (R223). -/
  | linkSetState (q : Byte) (st : BitVec 3)
  /-- LINK_READ q, l (R224). -/
  | linkRead (q l : Byte)
deriving DecidableEq, Repr

end Sys2Proof
end

