-- ==== Sys2Proof/WellFormed.lean ====
section
/-! DEFINITION. Which command words are well formed (30_encoding.md R82 to R84), as the opcode map of R83 says it: 16 rows
of `match` and `mask`, and `(w & mask) = match` for one of them. The mask covers the opcode and every must-be-zero bit, so
this is every check an encoding is put to. A value of `Instr` needs no check of its own: each operand's type is its field
(R87), and an operand out of a rule's range is a result of the command, no ill-formed command (R86). -/

namespace Sys2Proof

/-- One row of the opcode map of R83. -/
structure OpRow where
  mnemonic : String
  matchBits : Word
  mask : Word
deriving DecidableEq, Repr

/-- The opcode map of R83: mnemonic, `match`, `mask`. -/
def opTable : List OpRow :=
  [⟨"CHAR_ENC", 0x00000001#32, 0xFFFF00FF#32⟩,
   ⟨"CHAR_DEC", 0x00000002#32, 0xFFFE00FF#32⟩,
   ⟨"CRC16", 0x00000003#32, 0xFFFFFFFF#32⟩,
   ⟨"FRAME_SIZE", 0x00000010#32, 0xFFFFFFFF#32⟩,
   ⟨"FRAME_ENC", 0x00000011#32, 0xFF0000FF#32⟩,
   ⟨"FRAME_DEC", 0x00000012#32, 0xFFFFFFFF#32⟩,
   ⟨"RTR_INIT", 0x00000020#32, 0xFF0000FF#32⟩,
   ⟨"RTR_ADD_ROUTE", 0x00000021#32, 0xFF0000FF#32⟩] ++
  [⟨"RTR_OPEN_CH", 0x00000022#32, 0xFFFF00FF#32⟩,
   ⟨"RTR_ROUTE", 0x00000023#32, 0xFFFF00FF#32⟩,
   ⟨"RTR_READ_ROUTE", 0x00000024#32, 0xFFFF00FF#32⟩,
   ⟨"RTR_READ_CFG", 0x00000025#32, 0xFFFFFFFF#32⟩,
   ⟨"VC_READ", 0x00000026#32, 0xFFFF00FF#32⟩,
   ⟨"LINK_INIT", 0x00000030#32, 0xFFFE00FF#32⟩,
   ⟨"LINK_SET_STATE", 0x00000031#32, 0xFFF800FF#32⟩,
   ⟨"LINK_READ", 0x00000032#32, 0xFF0000FF#32⟩]

/-- `(w & mask) == match` (R82). -/
def OpRow.accepts (r : OpRow) (w : Word) : Bool := w &&& r.mask == r.matchBits

/-- A well-formed command word: some row of R83 accepts it. -/
def wellFormed (w : Word) : Bool := opTable.any (·.accepts w)

/-- The row of R83 a command belongs to, by its mnemonic. -/
def Instr.mnemonic : Instr → String
  | .charEnc _ => "CHAR_ENC"
  | .charDec _ _ => "CHAR_DEC"
  | .crc16 => "CRC16"
  | .frameSize => "FRAME_SIZE"
  | .frameEnc _ _ => "FRAME_ENC"
  | .frameDec => "FRAME_DEC"
  | .rtrInit _ _ => "RTR_INIT"
  | .rtrAddRoute _ _ => "RTR_ADD_ROUTE"
  | .rtrOpenCh _ => "RTR_OPEN_CH"
  | .rtrRoute _ => "RTR_ROUTE"
  | .rtrReadRoute _ => "RTR_READ_ROUTE"
  | .rtrReadCfg => "RTR_READ_CFG"
  | .vcRead _ => "VC_READ"
  | .linkInit _ _ => "LINK_INIT"
  | .linkSetState _ _ => "LINK_SET_STATE"
  | .linkRead _ _ => "LINK_READ"

end Sys2Proof
end

