-- ==== Sys2Proof/Decode.lean ====
section
/-! DEFINITION. The decoder of command words and, after it, the encoder (30_encoding.md R80 to R89). Decoding is total on
all 2^32 words and rejects by name; an illegal word is no stop of the machine (it ends with `ILLEGAL_COMMAND`, R84). -/

namespace Sys2Proof

/-- Why a word is no command (R84). -/
inductive DecodeError where
  /-- An opcode R83 does not list: 0x00, 0x04 to 0x0F, 0x13 to 0x1F, 0x27 to 0x2F, 0x33 to 0xFF. -/
  | unknownOpcode (opc : Byte)
  /-- A listed opcode with a nonzero must-be-zero bit (R82). -/
  | reservedBits (opc : Byte)
deriving DecidableEq, Repr

/-! ### Fields of the command word (R81) -/

/-- `OPC` = CMD[7:0]. -/
def fieldOpc (w : Word) : Byte := w.extractLsb' 0 8

/-- `F1` = CMD[15:8]. -/
def fieldF1 (w : Word) : Byte := w.extractLsb' 8 8

/-- `F2` = CMD[23:16]. -/
def fieldF2 (w : Word) : Byte := w.extractLsb' 16 8

/-- `F3` = CMD[31:24]. -/
def fieldF3 (w : Word) : Byte := w.extractLsb' 24 8

/-- The 16 opcodes of R83, by name. -/
inductive Opcode where
  | charEnc
  | charDec
  | crc16
  | frameSize
  | frameEnc
  | frameDec
  | rtrInit
  | rtrAddRoute
  | rtrOpenCh
  | rtrRoute
  | rtrReadRoute
  | rtrReadCfg
  | vcRead
  | linkInit
  | linkSetState
  | linkRead
deriving DecidableEq, Repr

/-- The opcode numbers of R83 (D4). -/
def Opcode.byte : Opcode → Byte
  | .charEnc => 0x01
  | .charDec => 0x02
  | .crc16 => 0x03
  | .frameSize => 0x10
  | .frameEnc => 0x11
  | .frameDec => 0x12
  | .rtrInit => 0x20
  | .rtrAddRoute => 0x21
  | .rtrOpenCh => 0x22
  | .rtrRoute => 0x23
  | .rtrReadRoute => 0x24
  | .rtrReadCfg => 0x25
  | .vcRead => 0x26
  | .linkInit => 0x30
  | .linkSetState => 0x31
  | .linkRead => 0x32

/-- Every opcode. -/
def Opcode.all : List Opcode :=
  [.charEnc, .charDec, .crc16, .frameSize, .frameEnc, .frameDec, .rtrInit, .rtrAddRoute] ++
  [.rtrOpenCh, .rtrRoute, .rtrReadRoute, .rtrReadCfg, .vcRead, .linkInit, .linkSetState, .linkRead]

/-- The opcode with this number, `none` for the unassigned ones (R84). -/
def opcodeOf (b : Byte) : Option Opcode := Opcode.all.find? fun o => o.byte == b

/-- The command of an opcode with these field bytes: the operands each row of R83 takes from them. The other bits must be
zero (`mustBeZero`). -/
def operandsOf (f1 f2 : Byte) : Opcode → Instr
  | .charEnc => .charEnc f1
  | .charDec => .charDec f1 (f2.extractLsb' 0 1)
  | .crc16 => .crc16
  | .frameSize => .frameSize
  | .frameEnc => .frameEnc f1 f2
  | .frameDec => .frameDec
  | .rtrInit => .rtrInit f1 f2
  | .rtrAddRoute => .rtrAddRoute f1 f2
  | .rtrOpenCh => .rtrOpenCh f1
  | .rtrRoute => .rtrRoute f1
  | .rtrReadRoute => .rtrReadRoute f1
  | .rtrReadCfg => .rtrReadCfg
  | .vcRead => .vcRead f1
  | .linkInit => .linkInit f1 (f2.extractLsb' 0 1)
  | .linkSetState => .linkSetState f1 (f2.extractLsb' 0 3)
  | .linkRead => .linkRead f1 f2

/-- The must-be-zero bits of each row of R83 are zero (R82): all of `F3`, and what the row does not use of `F1` and `F2`. -/
def mustBeZero (f1 f2 f3 : Byte) : Opcode → Bool
  | .charEnc | .rtrOpenCh | .rtrRoute | .rtrReadRoute | .vcRead => f2 == 0 && f3 == 0
  | .charDec | .linkInit => f2.extractLsb' 1 7 == 0 && f3 == 0
  | .linkSetState => f2.extractLsb' 3 5 == 0 && f3 == 0
  | .crc16 | .frameSize | .frameDec | .rtrReadCfg => f1 == 0 && f2 == 0 && f3 == 0
  | .frameEnc | .rtrInit | .rtrAddRoute | .linkRead => f3 == 0

/-- The opcode map of R83 over the four fields. -/
def decodeFields (opc f1 f2 f3 : Byte) : Except DecodeError Instr :=
  match opcodeOf opc with
  | none => .error (.unknownOpcode opc)
  | some o => if mustBeZero f1 f2 f3 o then .ok (operandsOf f1 f2 o) else .error (.reservedBits opc)

/-- The decoder: every word is a command or is rejected by name (R80, R82, R84). -/
def decode (w : Word) : Except DecodeError Instr :=
  decodeFields (fieldOpc w) (fieldF1 w) (fieldF2 w) (fieldF3 w)

/-- The host's reading of a table word: the bits above `nbits` are zero, and a command word is 32 bits (R80). -/
def decodeTableWord (nbits w : Nat) : Option Instr :=
  match decode (BitVec.ofNat 32 (w % 2 ^ nbits)) with
  | .ok i => some i
  | .error _ => none

/-! ### The encoder -/

/-- The command word with these fields (R81). -/
def assemble (opc f1 f2 f3 : Byte) : Word := f3 ++ f2 ++ f1 ++ opc

/-- The word of a command, its must-be-zero bits zero (R83). -/
def encode : Instr → Word
  | .charEnc d => assemble Opcode.charEnc.byte d 0 0
  | .charDec b p => assemble Opcode.charDec.byte b (p.setWidth 8) 0
  | .crc16 => assemble Opcode.crc16.byte 0 0 0
  | .frameSize => assemble Opcode.frameSize.byte 0 0 0
  | .frameEnc t i => assemble Opcode.frameEnc.byte t i 0
  | .frameDec => assemble Opcode.frameDec.byte 0 0 0
  | .rtrInit a n => assemble Opcode.rtrInit.byte a n 0
  | .rtrAddRoute e o => assemble Opcode.rtrAddRoute.byte e o 0
  | .rtrOpenCh c => assemble Opcode.rtrOpenCh.byte c 0 0
  | .rtrRoute t => assemble Opcode.rtrRoute.byte t 0 0
  | .rtrReadRoute e => assemble Opcode.rtrReadRoute.byte e 0 0
  | .rtrReadCfg => assemble Opcode.rtrReadCfg.byte 0 0 0
  | .vcRead c => assemble Opcode.vcRead.byte c 0 0
  | .linkInit q k => assemble Opcode.linkInit.byte q (k.setWidth 8) 0
  | .linkSetState q st => assemble Opcode.linkSetState.byte q (st.setWidth 8) 0
  | .linkRead q l => assemble Opcode.linkRead.byte q l 0

end Sys2Proof
end

