-- ==== Sys2Proof/Config.lean ====
section
/-! DEFINITION. What an implementation or a platform fixes: the constants and the parameters of 00_scope.md R7, and the one
free value (70_reset_and_hazards.md R281). The parameters are DATA: `State.cfg` holds one `Config`, no step changes it, and
a statement about every state is a statement about every choice of the parameters (log 2). -/

namespace Sys2Proof

/-! ### Constants of R7 -/

/-- `PORT_CAP`: link entries, and the bound on `num_ports`. -/
abbrev portCap : Nat := 8

/-- `ROUTE_CAP`: routing-table entries. -/
abbrev routeCap : Nat := 8

/-- `VC_CAP`: virtual channels. -/
abbrev vcCap : Nat := 16

/-- `VC_DEFAULT_CREDITS`. -/
abbrev vcDefaultCredits : Half := 64#16

/-- `FRAME_OVERHEAD`: header (2) and CRC (2). -/
abbrev frameOverhead : Nat := 4

/-- `MIN_FRAME`: shortest decodable buffer. -/
abbrev minFrame : Nat := 4

/-- `MAX_PAYLOAD`. -/
abbrev maxPayload : Nat := 65535

/-- `MAX_FRAME` = `MAX_PAYLOAD` + `FRAME_OVERHEAD`. -/
abbrev maxFrame : Nat := 65539

/-- `CRC_POLY`: x^16 + x^12 + x^5 + 1. -/
abbrev crcPoly : Half := 0x1021#16

/-- `CRC_XOROUT` (D10). -/
abbrev crcXorOut : Half := 0x0000#16

/-- `NULL_ADDR`: the address that means "absent" (R12). -/
abbrev nullAddr : Word := 0#32

/-- `ROUTE_EMPTY`: the routing-table value that means "no route" (D20). -/
abbrev routeEmpty : Byte := 0xFF#8

/-- One past the highest buffer-memory address: `ADDR_W` = 32 bits. -/
abbrev addrTop : Nat := 4294967296

/-! ### Parameters of R7 -/

/-- The four control markers (40_character_codec.md R112). -/
inductive Marker where
  | escape
  | flowControlToken
  | endOfPacket
  | endOfErrorPacket
deriving DecidableEq, Repr

/-- `CTRL_MAP`: the marker each reserved value 0 to 3 stands for (R112, D8). Any four markers are a map. -/
structure CtrlMap where
  of0 : Marker
  of1 : Marker
  of2 : Marker
  of3 : Marker
deriving DecidableEq, Repr

/-- A range of byte addresses, `base` to `base + size - 1`. -/
structure Region where
  base : Nat
  size : Nat
deriving DecidableEq, Repr

/-- The parameters of one block on one platform (R7, S10). -/
structure Config where
  /-- `CRC_INIT` (R130). -/
  crcInit : Half
  /-- `CTRL_MAP` (R112). -/
  ctrlMap : CtrlMap
  /-- What `Admit` is made from (R63): the maximal runs of bytes that exist in the buffer memory and that the block may
  access (log 3). -/
  regions : List Region
  /-- The bytes of the platform with read or write side effects, which no buffer may hold (R66, S5; log 9). -/
  devices : List Region
  /-- `BASE`: the bus address of the 64-byte register window (R68, D2; log 5). -/
  base : Word
deriving DecidableEq, Repr

/-- The defaults: `CRC_INIT` and `CTRL_MAP` from R7; the buffer memory from the platform of 95_test_vectors.md
(DESIGN CHOICE, log 3); no device ranges (DESIGN CHOICE, log 9); the window at 0 (DESIGN CHOICE, log 5). -/
def Config.default : Config where
  crcInit := 0xFFFF#16
  ctrlMap :=
    { of0 := .escape, of1 := .flowControlToken, of2 := .endOfPacket, of3 := .endOfErrorPacket }
  regions := [{ base := 0x1000, size := 0xF000 }]
  devices := []
  base := 0#32

/-! ### The free value -/

/-- FREE VALUE (log 12). The `k`-th free byte: what a byte of an abandoned command's write footprint holds after reset,
"any value" (R281). It has no body, so no proof sees what it is. -/
opaque Config.freeByte : Nat → Byte

end Sys2Proof
end

