-- ==== Sys2Proof/Machine/State.lean ====
section
/-! DEFINITION. The state of the block as plain data, what the host and the platform give it, the reasons a step can stop,
and the state after reset (10_state.md; 70_reset_and_hazards.md R280). -/

namespace Sys2Proof.Machine

/-! ### Link-state file (R40 to R46) -/

/-- The five link states (R42). The field is three bits wide when it is read (`LinkState.bits`); 5 to 7 are "never held",
so they are no value of the type (log 15). -/
inductive LinkState where
  | uninitialized
  | ready
  | started
  | connected
  | error
deriving DecidableEq, Repr

/-- One entry of the link-state register file (R40), the router's Link and the LinkState store in one (R41). -/
structure Link where
  portId : Byte
  state : LinkState
  txPackets : Word
  rxPackets : Word
  errors : Word
  bitRate : Word
  disconnectTimeout : Word
  maxRxCredits : Half
  crcEnable : BitVec 1
  rxCredits : Half
  txCredits : Half
deriving DecidableEq, Repr

/-- One virtual channel (R33). Its `id` is hard-wired to its index and has no storage (`vcId`, log 13). -/
structure Channel where
  active : Bool
  credits : Half
deriving DecidableEq, Repr

/-! ### The buffer memory (20_memory.md R60) -/

/-- Listed (address, byte) pairs, addresses strictly rising, no byte equal to what an unlisted address reads as
(`Memory.wf`). -/
abbrev Memory := List Host.Cell

/-! ### The host and the reset input (R20, R22, R280) -/

/-- How wide a host access is. Only an aligned 32-bit access is part of the interface (R67). -/
inductive AccessSize where
  | byte
  | half
  | word
deriving DecidableEq, Repr

/-- What the world outside the block does next (log 1). -/
inductive HostAction where
  /-- The host writes `data` at bus address `addr` of the register window (R21); at `CMD` this starts the command (R22). -/
  | regWrite (addr : Word) (size : AccessSize) (data : Word)
  /-- The host reads the register window at bus address `addr` (R21). -/
  | regRead (addr : Word) (size : AccessSize)
  /-- The host writes one byte of its buffer memory (R60, R70; `MEM` of R90). -/
  | memWrite (addr : Word) (v : Byte)
  /-- The host reads one byte of its buffer memory (R70). -/
  | memRead (addr : Word)
  /-- Reset is asserted between commands (R280). -/
  | reset
  /-- The host writes `w` to `CMD`, and reset is asserted while that command runs (R281). -/
  | resetDuring (w : Word)
  /-- Another agent writes the block's registers, or a buffer, inside the host's critical section (R75, R286). -/
  | foreignAccess
deriving DecidableEq, Repr

/-- What the host has done in its critical section (20_memory.md R75, R286), kept to refuse its own write of a buffer that a
command reads (log 22). -/
structure HostSection where
  /-- The ARG registers the host has written since the last command. -/
  operands : List (Fin 4)
  /-- The bytes of buffer memory the host has written since then, newest first, each with the ARG registers it had written
  before. -/
  written : List (Nat × List (Fin 4))
  /-- The ranges (address, length) of buffer memory that the last command read, if the host had written an operand of it. -/
  reads : List (Nat × Nat)
  /-- The host has written one of those bytes since that command. -/
  overwritten : Bool
deriving DecidableEq, Repr

/-- No operand written, no command run. -/
def HostSection.closed : HostSection where
  operands := []
  written := []
  reads := []
  overwritten := false

/-! ### Stops -/

/-- Why the machine stops. -/
inductive Fault where
  /-- Raised by `CRC16`, `FRAME_ENC` and `FRAME_DEC` when a range of the footprint is not admitted: the command has "no next
  step" (R64). Safe: nothing is claimed after it. -/
  | stuck
  /-- Raised by a host access to a buffer-memory byte that `Admit` says is not there (R63; log 16). Safe: nothing is claimed
  after it. -/
  | hostBufferAbsent
deriving DecidableEq, Repr

/-- Why an action has no meaning. -/
inductive Refusal where
  /-- Raised by `exec` alone, for a command that has no meaning yet; no command is left so. Safe. -/
  | notModelled (mnemonic : String)
  /-- Raised by `FRAME_ENC` when payload and destination overlap (R153). Safe: the spec refuses it. -/
  | overlap
  /-- Raised by `CRC16`, `FRAME_ENC` and `FRAME_DEC` for a footprint on locations with side effects (R66, S5; log 9), and by
  the host's own access to such a byte (log 16). Safe: the spec refuses the one and says nothing of the other. -/
  | deviceBuffer
  /-- Raised by a narrow or misaligned host access to the register window (R67, S4). Safe: the spec refuses it. -/
  | registerAccess
  /-- Raised by a host access outside the register window, which is no access to this block (R21; log 5). Safe: nothing is
  claimed after it. -/
  | outsideWindow
  /-- Raised by another agent's access inside the host's critical section (R75, R286, U2; log 11). Safe: the spec
  refuses it. -/
  | foreignAgent
  /-- Raised when the host itself has written, inside its critical section, a buffer the command reads (R286; log 22): by the
  write of `CMD` for a write before it, by the read of a result for a write after it. Safe: the spec refuses it. -/
  | criticalSection
deriving DecidableEq, Repr

/-! ### The state -/

/-- Everything the spec gives the machine, and the model's own fields `host`, `hostReads`, `hostSection` and `draws`. -/
structure State where
  /-- `CMD` (R21, R22). -/
  cmd : Word
  /-- `STATUS[7:0]` (R25); `STATUS[31:8]` is hard-wired to 0. -/
  status : Byte
  /-- `ARG0` to `ARG3` (R23). -/
  arg0 : Word
  arg1 : Word
  arg2 : Word
  arg3 : Word
  /-- `RES0` to `RES2` (R24). -/
  res0 : Word
  res1 : Word
  res2 : Word
  /-- `device_addr` (R30). -/
  deviceAddr : Byte
  /-- `num_ports`, 0 to 8, stored in 8 bits (R31). -/
  numPorts : Byte
  /-- `route[0..7]` (R32). -/
  route : Vector Byte 8
  /-- `vc[0..15]` (R33). -/
  vc : Vector Channel 16
  /-- `link[0..7]` (R40). -/
  link : Vector Link 8
  /-- The buffer memory (R60). -/
  mem : Memory
  /-- The parameters (R7). -/
  cfg : Config
  /-- The model's own: the actions of the host and of the reset input still to come, oldest first (log 1). -/
  host : List HostAction
  /-- The model's own: what the host's reads returned, newest first, a byte zero-extended (log 17). -/
  hostReads : List Word
  /-- The model's own: the host's critical section (R286; log 22). -/
  hostSection : HostSection
  /-- The model's own: how many free bytes have been drawn (log 12). -/
  draws : Nat
deriving DecidableEq, Repr

/-- A link entry at reset (R40): `port_id` its index, everything else 0. -/
def Link.atReset (p : Fin 8) : Link where
  portId := BitVec.ofNat 8 p
  state := .uninitialized
  txPackets := 0
  rxPackets := 0
  errors := 0
  bitRate := 0
  disconnectTimeout := 0
  maxRxCredits := 0
  crcEnable := 0
  rxCredits := 0
  txCredits := 0

/-- A channel at reset and after `RTR_INIT` (R33, R181): inactive, 64 credits. -/
def Channel.initial : Channel where
  active := false
  credits := vcDefaultCredits

/-- The machine right after reset, nothing placed (R280): every value from 10_state.md; the buffer memory lists nothing
(log 4), the parameters have their defaults (log 2, log 3, log 5, log 9), and no action is pending (log 1), and the host is in no critical section (log 22). -/
def State.reset : State where
  cmd := 0
  status := 0
  arg0 := 0
  arg1 := 0
  arg2 := 0
  arg3 := 0
  res0 := 0
  res1 := 0
  res2 := 0
  deviceAddr := 0
  numPorts := 0
  route := Vector.replicate 8 routeEmpty
  vc := Vector.replicate 16 Channel.initial
  link := Vector.ofFn Link.atReset
  mem := []
  cfg := Config.default
  host := []
  hostReads := []
  hostSection := HostSection.closed
  draws := 0

end Sys2Proof.Machine
end

