-- ==== Sys2Proof/Machine/Flags.lean ====
section
/-! DEFINITION. The block has no condition codes: its one status is the result code in `STATUS[7:0]` (10_state.md R47). The
codes of 60_exceptions.md R250, their numbers and classes, and the codes each command can give (R251). -/

namespace Sys2Proof.Machine

/-- The result codes of R250. The two reserved ones are listed there too; no command gives them (R255). -/
inductive Code where
  | ok
  | invalidArgument
  | insufficientBuffer
  | malformedFrame
  | checksumMismatch
  | routingMiss
  /-- Reserved (R255). -/
  | encodingOverflow
  | parityError
  | charEscape
  | charFct
  | charEop
  | charEep
  /-- Reserved (R255). -/
  | charInvalid
  | notRouted
  | illegalCommand
deriving DecidableEq, Repr

/-- The numbers of R250. -/
def Code.toByte : Code → Byte
  | .ok => 0x00
  | .invalidArgument => 0x01
  | .insufficientBuffer => 0x02
  | .malformedFrame => 0x03
  | .checksumMismatch => 0x04
  | .routingMiss => 0x05
  | .encodingOverflow => 0x06
  | .parityError => 0x07
  | .charEscape => 0x10
  | .charFct => 0x11
  | .charEop => 0x12
  | .charEep => 0x13
  | .charInvalid => 0x14
  | .notRouted => 0x20
  | .illegalCommand => 0x3F

/-- The classes of R250 that are errors: programmer errors and steady-state errors (R257). -/
def Code.isError : Code → Bool
  | .invalidArgument | .insufficientBuffer | .illegalCommand => true
  | .malformedFrame | .checksumMismatch | .routingMiss | .parityError => true
  | .ok | .notRouted | .charEscape | .charFct | .charEop | .charEep => false
  | .encodingOverflow | .charInvalid => false

/-- The reserved codes, never written (R255). -/
def Code.isReserved : Code → Bool
  | .encodingOverflow | .charInvalid => true
  | .ok | .invalidArgument | .insufficientBuffer | .malformedFrame | .checksumMismatch => false
  | .routingMiss | .parityError | .charEscape | .charFct | .charEop | .charEep => false
  | .notRouted | .illegalCommand => false

/-- Every code a command may write (R250: "No other value is ever written to `STATUS[7:0]`"). -/
def Code.written : List Code :=
  [.ok, .invalidArgument, .insufficientBuffer, .malformedFrame, .checksumMismatch, .routingMiss, .parityError,
   .charEscape, .charFct, .charEop, .charEep, .notRouted, .illegalCommand]

/-- The codes each command can give, "and nothing else" (R251). -/
def codesOf : Instr → List Code
  | .charEnc _ => [.ok]
  | .charDec _ _ => [.ok, .parityError, .charEscape, .charFct, .charEop, .charEep]
  | .crc16 => [.ok]
  | .frameSize => [.ok, .invalidArgument]
  | .frameEnc _ _ => [.ok, .invalidArgument, .insufficientBuffer]
  | .frameDec => [.ok, .invalidArgument, .malformedFrame, .checksumMismatch]
  | .rtrInit _ _ => [.ok]
  | .rtrAddRoute _ _ => [.ok]
  | .rtrOpenCh _ => [.ok]
  | .rtrRoute _ => [.ok, .notRouted, .routingMiss]
  | .rtrReadRoute _ => [.ok, .invalidArgument]
  | .rtrReadCfg => [.ok]
  | .vcRead _ => [.ok, .invalidArgument]
  | .linkInit _ _ => [.ok, .invalidArgument]
  | .linkSetState _ _ => [.ok, .invalidArgument]
  | .linkRead _ _ => [.ok, .invalidArgument]

end Sys2Proof.Machine
end

