-- ==== Sys2Proof/Machine/Operands.lean ====
section
/-! DEFINITION. The operand forms (30_encoding.md R86, R87): a byte used as an index into one of the three tables, an ARG
register taken as 16 bits after the check that its upper half is zero, a 3-bit link state, a field selector. -/

namespace Sys2Proof.Machine

/-! ### Indexes: `none` is "out of range" and each command's rule says what follows -/

/-- A port 0 to 7 (44_link_state.md R220). -/
def portIndex (q : Byte) : Option (Fin 8) :=
  if h : q.toNat < portCap then some ⟨q.toNat, h⟩ else none

/-- A destination 0 to 7 of the routing table (10_state.md R32). -/
def destIndex (e : Byte) : Option (Fin 8) :=
  if h : e.toNat < routeCap then some ⟨e.toNat, h⟩ else none

/-- A virtual channel 0 to 15 (10_state.md R33). -/
def chanIndex (c : Byte) : Option (Fin 16) :=
  if h : c.toNat < vcCap then some ⟨c.toNat, h⟩ else none

/-! ### ARG registers as narrower values (R87, D16) -/

/-- `ARGk[31:16] = 0`. -/
def fitsHalf (w : Word) : Bool := w.extractLsb' 16 16 == 0

/-- `ARGk[15:0]`. -/
def lowHalf (w : Word) : Half := w.extractLsb' 0 16

/-- The ARG registers a command's rule names (the column "ARG operands" of R83); "the others are ignored" (R23). -/
def argsRead : Instr → List (Fin 4)
  | .crc16 => [0, 1]
  | .frameSize => [1]
  | .frameEnc _ _ => [0, 1, 2, 3]
  | .frameDec => [0, 1]
  | .linkInit _ _ => [0, 1, 2]
  | .charEnc _ | .charDec _ _ | .rtrInit _ _ | .rtrAddRoute _ _ | .rtrOpenCh _ | .rtrRoute _ => []
  | .rtrReadRoute _ | .rtrReadCfg | .vcRead _ | .linkSetState _ _ | .linkRead _ _ => []

/-! ### Link states (10_state.md R42) -/

/-- The number of a link state. -/
def LinkState.bits : LinkState → BitVec 3
  | .uninitialized => 0
  | .ready => 1
  | .started => 2
  | .connected => 3
  | .error => 4

/-- The state a 3-bit operand names; 5, 6 and 7 name none (R223). -/
def linkStateOf (st : BitVec 3) : Option LinkState :=
  if st = 0 then some .uninitialized
  else if st = 1 then some .ready
  else if st = 2 then some .started
  else if st = 3 then some .connected
  else if st = 4 then some .error
  else none

/-! ### Field selectors (44_link_state.md R224) -/

/-- `field(link[q], l)`, zero-extended; `none` for the selectors 11 to 255. -/
def Link.field (k : Link) (l : Byte) : Option Word :=
  if l = 0 then some (zext32 k.state.bits)
  else if l = 1 then some k.txPackets
  else if l = 2 then some k.rxPackets
  else if l = 3 then some k.errors
  else if l = 4 then some (zext32 k.rxCredits)
  else if l = 5 then some (zext32 k.txCredits)
  else if l = 6 then some k.bitRate
  else if l = 7 then some k.disconnectTimeout
  else if l = 8 then some (zext32 k.maxRxCredits)
  else if l = 9 then some (zext32 k.crcEnable)
  else if l = 10 then some (zext32 k.portId)
  else none

end Sys2Proof.Machine
end

