-- ==== Sys2Proof/Machine/Ops.lean ====
section
/-! DEFINITION. The shared operations: the buffer memory byte by byte (20_memory.md R60 to R66), `Admit` and the footprint
check (R63, R64), `finish` and `raise` (00_scope.md R10), the accessors of the internal state, and free bytes. -/

namespace Sys2Proof.Machine

/-! ### The buffer memory -/

/-- What a byte reads as that nothing has written: 0x00 (DESIGN CHOICE, log 4; 95_test_vectors.md section 2.4). -/
def unwrittenByte : Byte := 0x00

/-- `MemRead(a, 1)` (R62, R66): the byte last written there. -/
def Memory.read : Memory → Nat → Byte
  | [], _ => unwrittenByte
  | (k, b) :: rest, a => if k = a then b else Memory.read rest a

/-- A cell in front of a list, left out when it holds what an unlisted address reads as. -/
def Memory.cons (a : Nat) (v : Byte) (rest : Memory) : Memory :=
  if v = unwrittenByte then rest else (a, v) :: rest

/-- `MemWrite(a, 1, v)` (R62, R66): changes its own byte and keeps the canonical form. -/
def Memory.write : Memory → Nat → Byte → Memory
  | [], a, v => Memory.cons a v []
  | (k, b) :: rest, a, v =>
    if a < k then Memory.cons a v ((k, b) :: rest)
    else if a = k then Memory.cons a v rest
    else (k, b) :: Memory.write rest a v

/-- Addresses at least `lo` and strictly rising, inside the 32-bit space, no byte that an unlisted address reads as. -/
def Memory.wfFrom (lo : Nat) : Memory → Bool
  | [] => true
  | (k, b) :: rest => decide (lo ≤ k) && decide (k < addrTop) && b != unwrittenByte && Memory.wfFrom (k + 1) rest

/-- The canonical form: equal memories are equal lists. -/
def Memory.wf (m : Memory) : Bool := Memory.wfFrom 0 m

/-- The `n` bytes from `a` on, in ascending address order. -/
def Memory.readBytes (m : Memory) (a : Nat) : Nat → List Byte
  | 0 => []
  | n + 1 => m.read a :: Memory.readBytes m (a + 1) n

/-- Byte writes from `a` on, in ascending address order. -/
def Memory.writeBytes (m : Memory) (a : Nat) : List Byte → Memory
  | [] => m
  | v :: vs => Memory.writeBytes (m.write a v) (a + 1) vs

/-- `for k in 0 .. n-1: MemWrite(dst + k, 1, MemRead(src + k, 1))` (R152), one byte at a time. -/
def Memory.copyBytes (m : Memory) (src dst : Nat) : Nat → Memory
  | 0 => m
  | n + 1 => Memory.copyBytes (m.write dst (m.read src)) (src + 1) (dst + 1) n

/-! ### `Admit`, overlap and the footprint -/

/-- `overlaps(x, m, y, k)` (R152): the ranges `x .. x+m-1` and `y .. y+k-1` share an address (log 8). -/
def overlaps (x m y k : Nat) : Bool :=
  decide (0 < m) && decide (0 < k) && decide (x < y + k) && decide (y < x + m)

/-- All of `a .. a+n-1` lies in the region. -/
def holdsRange (r : Region) (a n : Nat) : Bool := decide (r.base ≤ a) && decide (a + n ≤ r.base + r.size)

/-- `Admit(a, n)` (R63): true for n = 0, false past 2^32, and the rest from the platform's regions (log 3). -/
def admitted (c : Config) (a n : Nat) : Bool :=
  n == 0 || decide (a + n ≤ addrTop) && c.regions.any (fun r => holdsRange r a n)

/-- The range holds a location with side effects (R66, S5; log 9). -/
def touchesDevice (c : Config) (a n : Nat) : Bool := c.devices.any (fun r => overlaps a n r.base r.size)

/-- The check before the first access (R64): every range of the footprint admitted, or the command is stuck; then no range
on side-effecting locations, or the command is refused (R66). Only then does `k` run. -/
def State.withFootprint (s : State) (ranges : List (Nat × Nat)) (k : Host.Outcome State Fault Refusal) :
    Host.Outcome State Fault Refusal :=
  if ranges.all (fun r => admitted s.cfg r.1 r.2) then
    if ranges.any (fun r => touchesDevice s.cfg r.1 r.2) then .refused .deviceBuffer else k
  else .fault .stuck

/-! ### Ending a command (R10, R11, R24) -/

/-- `finish(code, r0, r1, r2)`: `STATUS` and the three results, nothing else. -/
def State.finish (s : State) (c : Code) (r0 r1 r2 : Word) : State :=
  { s with status := c.toByte, res0 := r0, res1 := r1, res2 := r2 }

/-- A command that ends with `finish(code, r0, r1, r2)`. -/
def done (c : Code) (r0 r1 r2 : Word) (s : State) : Host.Outcome State Fault Refusal :=
  .next (s.finish c r0 r1 r2)

/-- `raise <Code>` (R10): TAKING AN EXCEPTION on this hardware. "An error is a synchronous status return, never a trap"
(60_exceptions.md R252): no pc, status or mode is saved, there is no handler and no return (R259). -/
def raise (c : Code) (s : State) : Host.Outcome State Fault Refusal := done c 0 0 0 s

/-! ### Accessors of the internal state (10_state.md R27: reached only by commands) -/

/-- `vc[c].id`, hard-wired to the index (R33, D43; log 13). -/
def vcId (c : Fin 16) : BitVec 4 := BitVec.ofNat 4 c

/-- Buffer-memory update. -/
def State.setMem (s : State) (m : Memory) : State := { s with mem := m }

/-- `route[d] <- o`. -/
def State.setRoute (s : State) (d : Fin 8) (o : Byte) : State := { s with route := s.route.set d o }

/-- `vc[c].active <- 1`. -/
def State.openChannel (s : State) (c : Fin 16) : State :=
  { s with vc := s.vc.set c { s.vc[c] with active := true } }

/-- `link[p] <- k`. -/
def State.setLink (s : State) (p : Fin 8) (k : Link) : State := { s with link := s.link.set p k }

/-! ### Host-interface registers -/

/-- The host's write of `CMD` (R22). -/
def State.setCmd (s : State) (w : Word) : State := { s with cmd := w }

/-- The host's write of an operand register (R23). -/
def State.setArg (s : State) (k : Fin 4) (w : Word) : State :=
  match k with
  | 0 => { s with arg0 := w }
  | 1 => { s with arg1 := w }
  | 2 => { s with arg2 := w }
  | 3 => { s with arg3 := w }

/-- `STATUS` as a 32-bit register: `STATUS[31:8]` reads 0 (R25). -/
def State.statusWord (s : State) : Word := zext32 s.status

/-- A host read has returned `w` (log 17). -/
def State.observe (s : State) (w : Word) : State := { s with hostReads := w :: s.hostReads }

/-- The oldest pending action is taken from the queue (log 1). -/
def State.setHost (s : State) (rest : List HostAction) : State := { s with host := rest }

/-! ### The host's critical section (R286; log 22) -/

/-- The byte lies in one of the ranges (address, length). -/
def inRanges (ranges : List (Nat × Nat)) (a : Nat) : Bool :=
  ranges.any fun r => decide (r.1 ≤ a) && decide (a < r.1 + r.2)

/-- The host has written `ARGk`. -/
def HostSection.opened (h : HostSection) (k : Fin 4) : HostSection :=
  { h with operands := if k ∈ h.operands then h.operands else k :: h.operands }

/-- The host has written the byte `a`; with no operand written since the last command, no section is open. -/
def HostSection.noteWrite (h : HostSection) (a : Nat) : HostSection :=
  { h with
    written := if h.operands = [] then h.written else (a, h.operands) :: h.written
    overwritten := h.overwritten || inRanges h.reads a }

/-- One of the registers a command names is among these. -/
def namesOne (named operands : List (Fin 4)) : Bool := operands.any fun k => named.contains k

/-- After its first write of a register the command names, the host has written a byte of these ranges. -/
def HostSection.breaks (h : HostSection) (named : List (Fin 4)) (ranges : List (Nat × Nat)) : Bool :=
  h.written.any fun w => inRanges ranges w.1 && namesOne named w.2

/-- A command that names these registers has run and has read these ranges: what follows is its section up to the last read
of its results, if it has one. -/
def HostSection.afterCommand (h : HostSection) (named : List (Fin 4)) (ranges : List (Nat × Nat)) : HostSection where
  operands := []
  written := []
  reads := if namesOne named h.operands then ranges else []
  overwritten := false

/-- Update of the record. -/
def State.setSection (s : State) (k : HostSection) : State := { s with hostSection := k }

/-! ### Free bytes (R281; log 12) -/

/-- `n` bytes from `a` on get "any value": each the next free byte. -/
def Memory.smear (m : Memory) (draw a : Nat) : Nat → Memory
  | 0 => m
  | n + 1 => Memory.smear (m.write a (Config.freeByte draw)) (draw + 1) (a + 1) n

end Sys2Proof.Machine
end

