-- ==== Sys2Proof/Machine/Character.lean ====
section
/-! DEFINITION. The character codec (40_character_codec.md): `CHAR_ENC` and `CHAR_DEC`. No command here reads or writes
internal state or memory. -/

namespace Sys2Proof.Machine

/-- `parity(b)` (R111): the exclusive or of the eight bits. That this is "even parity" is the spec's reading (D7). -/
def parity (b : Byte) : BitVec 1 :=
  b.extractLsb' 7 1 ^^^ b.extractLsb' 6 1 ^^^ b.extractLsb' 5 1 ^^^ b.extractLsb' 4 1 ^^^
    b.extractLsb' 3 1 ^^^ b.extractLsb' 2 1 ^^^ b.extractLsb' 1 1 ^^^ b.extractLsb' 0 1

/-- `CTRL_MAP(b)` for b in 0 to 3, `none` for data (R112). -/
def ctrlMarker (m : CtrlMap) (b : Byte) : Option Marker :=
  if b = 0 then some m.of0
  else if b = 1 then some m.of1
  else if b = 2 then some m.of2
  else if b = 3 then some m.of3
  else none

/-- `code_of(marker)` (R115): fixed by the marker, not by the byte (R112). -/
def codeOfMarker : Marker → Code
  | .escape => .charEscape
  | .flowControlToken => .charFct
  | .endOfPacket => .charEop
  | .endOfErrorPacket => .charEep

/-- `CHAR_ENC d` (R114). -/
def execCharEnc (d : Byte) (s : State) : Host.Outcome State Fault Refusal :=
  done .ok (zext32 d) (zext32 (parity d)) 0 s

/-- `CHAR_DEC b, p` (R115): the parity check, then the classification. -/
def execCharDec (b : Byte) (p : BitVec 1) (s : State) : Host.Outcome State Fault Refusal :=
  if p ≠ parity b then raise .parityError s
  else
    match ctrlMarker s.cfg.ctrlMap b with
    | some m => done (codeOfMarker m) 0 0 0 s
    | none => done .ok (zext32 b) 0 0 s

end Sys2Proof.Machine
end

