-- ==== Sys2Proof/Machine/Frame.lean ====
section
/-! DEFINITION. The frame codec (42_frame_codec.md): `FRAME_SIZE`, `FRAME_ENC`, `FRAME_DEC`. The payload is not passed
through the character codec (R150), and no protocol id is checked (R157). -/

namespace Sys2Proof.Machine

/-- Bytes of a frame with an `n`-byte payload (R150, R151). -/
def frameSize (n : Nat) : Nat := frameOverhead + n

/-- `FRAME_SIZE` (R151). -/
def execFrameSize (s : State) : Host.Outcome State Fault Refusal :=
  if fitsHalf s.arg1 then done .ok (4 + zext32 (lowHalf s.arg1)) 0 0 s
  else raise .invalidArgument s

/-- The payload length operand N = `ARG1[15:0]` (R151, R152). -/
def State.payloadLen (s : State) : Nat := (lowHalf s.arg1).toNat

/-- The bytes of a frame (R150): target address, protocol id, payload, and the CRC of all of these, big-endian. -/
def frameBytes (init : Half) (t i : Byte) (payload : List Byte) : List Byte :=
  let body := t :: i :: payload
  body ++ [(crc16 init body).extractLsb' 8 8, (crc16 init body).extractLsb' 0 8]

/-- The memory after the writes of `FRAME_ENC` (R152), in their order: header, payload, then the big-endian CRC over every
byte written so far. -/
def frameWrites (init : Half) (t i : Byte) (pa ba n : Nat) (m : Memory) : Memory :=
  let m2 := (m.write ba t).write (ba + 1) i
  let m3 := m2.copyBytes pa (ba + 2) n
  let crc := crc16 init (m3.readBytes ba (2 + n))
  (m3.write (ba + 2 + n) (crc.extractLsb' 8 8)).write (ba + 3 + n) (crc.extractLsb' 0 8)

/-- The footprint of `FRAME_ENC` (R152): the payload only if N > 0, and the destination. -/
def frameEncFootprint (pa ba n : Nat) : List (Nat × Nat) :=
  (ba, frameSize n) :: (if n = 0 then [] else [(pa, n)])

/-- `FRAME_ENC t, i` (R152), its checks in the order of the rule: NULL buffer, payload length, NULL payload, capacity,
overlap (R153), footprint. -/
def execFrameEnc (t i : Byte) (s : State) : Host.Outcome State Fault Refusal :=
  if s.arg2 = nullAddr then raise .invalidArgument s
  else if fitsHalf s.arg1 = false then raise .invalidArgument s
  else if s.arg0 = nullAddr ∧ s.payloadLen ≠ 0 then raise .invalidArgument s
  else if s.arg3.toNat < frameSize s.payloadLen then raise .insufficientBuffer s
  else if overlaps s.arg0.toNat s.payloadLen s.arg2.toNat (frameSize s.payloadLen) then .refused .overlap
  else
    s.withFootprint (frameEncFootprint s.arg0.toNat s.arg2.toNat s.payloadLen)
      (done .ok (BitVec.ofNat 32 (frameSize s.payloadLen)) 0 0
        (s.setMem (frameWrites s.cfg.crcInit t i s.arg0.toNat s.arg2.toNat s.payloadLen s.mem)))

/-- The trailer of a frame of `len` bytes at `a`, read big-endian (R61, R155). -/
def State.trailer (s : State) (a len : Nat) : Half := s.mem.read (a + len - 2) ++ s.mem.read (a + len - 1)

/-- `{0x0000, protocol_id, target_addr}` (R155, D49). -/
def frameHeaderWord (i t : Byte) : Word := (0#16 : Half) ++ i ++ t

/-- `FRAME_DEC` (R155): NULL buffer, length bounds, footprint, checksum. -/
def execFrameDec (s : State) : Host.Outcome State Fault Refusal :=
  if s.arg0 = nullAddr then raise .invalidArgument s
  else if s.arg1.toNat < minFrame then raise .malformedFrame s
  else if maxFrame < s.arg1.toNat then raise .malformedFrame s
  else
    s.withFootprint [(s.arg0.toNat, s.arg1.toNat)]
      (if s.crcOf s.arg0.toNat (s.arg1.toNat - 2) ≠ s.trailer s.arg0.toNat s.arg1.toNat then
        raise .checksumMismatch s
       else
        done .ok (frameHeaderWord (s.mem.read (s.arg0.toNat + 1)) (s.mem.read s.arg0.toNat)) (s.arg0 + 2)
          (s.arg1 - 4) s)

end Sys2Proof.Machine
end

