-- ==== Sys2Proof/Machine/LinkFile.lean ====
section
/-! DEFINITION. The link-state register file (44_link_state.md): `LINK_INIT`, `LINK_SET_STATE`, `LINK_READ`. Ports 0 to 7
are valid whatever `num_ports` is (R220). -/

namespace Sys2Proof.Machine

/-- What `LINK_INIT` does to one entry (R221, D27): configuration, state and credits; id and counters stay. -/
def Link.configure (k : Link) (rate timeout : Word) (credits : Half) (crc : BitVec 1) : Link :=
  { k with
    bitRate := rate
    disconnectTimeout := timeout
    maxRxCredits := credits
    crcEnable := crc
    state := .uninitialized
    rxCredits := credits
    txCredits := 0 }

/-- `link[q].state <- s` (R223). -/
def Link.withState (k : Link) (st : LinkState) : Link := { k with state := st }

/-- `LINK_INIT q, k` (R221): port, then credit width. -/
def execLinkInit (q : Byte) (k : BitVec 1) (s : State) : Host.Outcome State Fault Refusal :=
  match portIndex q with
  | none => raise .invalidArgument s
  | some p =>
    if fitsHalf s.arg2 then
      done .ok 0 0 0 (s.setLink p ((s.link[p]).configure s.arg0 s.arg1 (lowHalf s.arg2) k))
    else raise .invalidArgument s

/-- `LINK_SET_STATE q, s` (R223): port, then state; any state from any other (R43). -/
def execLinkSetState (q : Byte) (st : BitVec 3) (s : State) : Host.Outcome State Fault Refusal :=
  match portIndex q with
  | none => raise .invalidArgument s
  | some p =>
    match linkStateOf st with
    | none => raise .invalidArgument s
    | some v => done .ok 0 0 0 (s.setLink p ((s.link[p]).withState v))

/-- `LINK_READ q, l` (R224): port, then selector. -/
def execLinkRead (q l : Byte) (s : State) : Host.Outcome State Fault Refusal :=
  match portIndex q with
  | none => raise .invalidArgument s
  | some p =>
    match (s.link[p]).field l with
    | none => raise .invalidArgument s
    | some v => done .ok v 0 0 s

end Sys2Proof.Machine
end

