-- ==== Sys2Proof/Machine/Router.lean ====
section
/-! DEFINITION. The router (43_router.md): `RTR_INIT`, `RTR_ADD_ROUTE`, `RTR_OPEN_CH`, `RTR_ROUTE`, `RTR_READ_ROUTE`,
`RTR_READ_CFG`, `VC_READ`. None touches buffer memory, and no routing rule reads a channel or a credit (R180, R187). -/

namespace Sys2Proof.Machine

/-- `min(n, PORT_CAP)` (R181). -/
def clampPorts (n : Byte) : Byte := if n.toNat ≤ portCap then n else 8

/-- What `RTR_INIT` does to one link entry (R181, D21): id, state and counters; configuration and credits stay. -/
def Link.routerInit (k : Link) (p : Fin 8) : Link :=
  { k with portId := BitVec.ofNat 8 p, state := .uninitialized, txPackets := 0, rxPackets := 0, errors := 0 }

/-- The internal state after `RTR_INIT a, n` (R181). -/
def State.initRouter (s : State) (a n : Byte) : State :=
  { s with
    deviceAddr := a
    numPorts := clampPorts n
    link := Vector.ofFn fun p => (s.link[p]).routerInit p
    vc := Vector.replicate 16 Channel.initial
    route := Vector.replicate 8 routeEmpty }

/-- `RTR_INIT a, n` (R181). -/
def execRtrInit (a n : Byte) (s : State) : Host.Outcome State Fault Refusal :=
  done .ok 0 0 0 (s.initRouter a n)

/-- `RTR_ADD_ROUTE e, o` (R183): silently ignored when the destination or the port is out of range. -/
def execRtrAddRoute (e o : Byte) (s : State) : Host.Outcome State Fault Refusal :=
  match destIndex e with
  | none => done .ok 0 0 0 s
  | some d => if s.numPorts ≤ o then done .ok 0 0 0 s else done .ok 0 0 0 (s.setRoute d o)

/-- `RTR_OPEN_CH c` (R185): `RES0` is the success flag. -/
def execRtrOpenCh (c : Byte) (s : State) : Host.Outcome State Fault Refusal :=
  match chanIndex c with
  | none => done .ok 0 0 0 s
  | some ch => done .ok 1 0 0 (s.openChannel ch)

/-- A routed frame is counted: `(tx_packets + 1) mod 2^32` (R187, R44). -/
def Link.countTx (k : Link) : Link := { k with txPackets := k.txPackets + 1 }

/-- The last test and the effect of `RTR_ROUTE` on the port `p` the table names (R187). A port with no link entry gives
`ROUTING_MISS` like a port at or above `num_ports` (D32): with `num_ports` at most 8 the two tests agree (log 14). -/
def routeVia (p : Byte) (s : State) : Host.Outcome State Fault Refusal :=
  match portIndex p with
  | none => raise .routingMiss s
  | some q =>
    if (s.link[q]).state = .connected then done .ok (zext32 p) 0 0 (s.setLink q (s.link[q]).countTx)
    else raise .routingMiss s

/-- `RTR_ROUTE t` (R187): local delivery, table range, port range, link state. -/
def execRtrRoute (t : Byte) (s : State) : Host.Outcome State Fault Refusal :=
  if t = s.deviceAddr then done .notRouted 0 0 0 s
  else
    match destIndex t with
    | none => raise .routingMiss s
    | some d => if s.numPorts ≤ s.route[d] then raise .routingMiss s else routeVia s.route[d] s

/-- `RTR_READ_ROUTE e` (R189). -/
def execRtrReadRoute (e : Byte) (s : State) : Host.Outcome State Fault Refusal :=
  match destIndex e with
  | none => raise .invalidArgument s
  | some d => done .ok (zext32 s.route[d]) 0 0 s

/-- `RTR_READ_CFG` (R190). -/
def execRtrReadCfg (s : State) : Host.Outcome State Fault Refusal :=
  done .ok (zext32 s.deviceAddr) (zext32 s.numPorts) 0 s

/-- `VC_READ c` (R191). -/
def execVcRead (c : Byte) (s : State) : Host.Outcome State Fault Refusal :=
  match chanIndex c with
  | none => raise .invalidArgument s
  | some ch =>
    done .ok (zext32 (vcId ch)) (if (s.vc[ch]).active then 1 else 0) (zext32 (s.vc[ch]).credits) s

end Sys2Proof.Machine
end

