-- ==== Sys2Proof/Machine/Dispatch.lean ====
section
/-! DEFINITION. One arm per command: the meaning of each row of 30_encoding.md R83. -/

namespace Sys2Proof.Machine

def exec (i : Instr) (s : State) : Host.Outcome State Fault Refusal :=
  match i with
  | .charEnc d => Sys2Proof.Machine.execCharEnc d s
  | .charDec b p => Sys2Proof.Machine.execCharDec b p s
  | .crc16 => Sys2Proof.Machine.execCrc16 s
  | .frameSize => Sys2Proof.Machine.execFrameSize s
  | .frameEnc t p => Sys2Proof.Machine.execFrameEnc t p s
  | .frameDec => Sys2Proof.Machine.execFrameDec s
  | .rtrInit a n => Sys2Proof.Machine.execRtrInit a n s
  | .rtrAddRoute e o => Sys2Proof.Machine.execRtrAddRoute e o s
  | .rtrOpenCh c => Sys2Proof.Machine.execRtrOpenCh c s
  | .rtrRoute t => Sys2Proof.Machine.execRtrRoute t s
  | .rtrReadRoute e => Sys2Proof.Machine.execRtrReadRoute e s
  | .rtrReadCfg => Sys2Proof.Machine.execRtrReadCfg s
  | .vcRead c => Sys2Proof.Machine.execVcRead c s
  | .linkInit q k => Sys2Proof.Machine.execLinkInit q k s
  | .linkSetState q st => Sys2Proof.Machine.execLinkSetState q st s
  | .linkRead q l => Sys2Proof.Machine.execLinkRead q l s

end Sys2Proof.Machine
end

