-- ==== Sys2Proof/Machine/HostPort.lean ====
section
/-! DEFINITION. What the host and the reset input do to the block: the register window (10_state.md R21 to R25), starting a
command (R22), the host's own accesses to the buffer memory (20_memory.md R70), reset between commands and during one
(70_reset_and_hazards.md R280, R281). -/

namespace Sys2Proof.Machine

/-! ### Starting a command -/

/-- Decode `w` and run it; an illegal word ends with `finish(ILLEGAL_COMMAND)` and does nothing else (R84, R256). -/
def runWord (w : Word) (s : State) : Host.Outcome State Fault Refusal :=
  match decode w with
  | .ok i => exec i s
  | .error _ => raise .illegalCommand s

/-- The ranges of buffer memory that a command read on its way from `s` to `t`: the "reads" of its footprint, on the path
that accesses memory (R65, R133, R152, R155). -/
def readsOf (i : Instr) (s t : State) : List (Nat × Nat) :=
  match i with
  | .crc16 => if s.arg0 = nullAddr then [] else [(s.arg0.toNat, s.arg1.toNat)]
  | .frameEnc _ _ => if t.status = Code.ok.toByte then [(s.arg0.toNat, s.payloadLen)] else []
  | .frameDec =>
    if t.status = Code.ok.toByte ∨ t.status = Code.checksumMismatch.toByte then [(s.arg0.toNat, s.arg1.toNat)] else []
  | .charEnc _ | .charDec _ _ | .frameSize | .rtrInit _ _ | .rtrAddRoute _ _ | .rtrOpenCh _ | .rtrRoute _ => []
  | .rtrReadRoute _ | .rtrReadCfg | .vcRead _ | .linkInit _ _ | .linkSetState _ _ | .linkRead _ _ => []

/-- The same for a command word; an illegal word reads nothing (R256). -/
def readFootprint (w : Word) (s t : State) : List (Nat × Nat) :=
  match decode w with
  | .ok i => readsOf i s t
  | .error _ => []

/-- The ARG registers the command of `w` names (R23, R80); an illegal word names none. -/
def namedArgs (w : Word) : List (Fin 4) :=
  match decode w with
  | .ok i => argsRead i
  | .error _ => []

/-- What the write of `CMD` adds around its command. "Nor may any agent write the buffers the command reads. [...] An
interleaving that breaks this rule is refused" (R286): a command that read a byte the host wrote in its section is refused
(log 22), and one that ends goes on with the section up to the reads of its results. -/
def endCommand (w : Word) (s : State) : Host.Outcome State Fault Refusal → Host.Outcome State Fault Refusal
  | .next t =>
    if s.hostSection.breaks (namedArgs w) (readFootprint w s t) then .refused .criticalSection
    else .next (t.setSection (s.hostSection.afterCommand (namedArgs w) (readFootprint w s t)))
  | .fault f => .fault f
  | .refused r => .refused r

/-- A host write of `w` to `CMD` stores `w` and starts the command it encodes, which runs to completion (R22). -/
def startCommand (w : Word) (s : State) : Host.Outcome State Fault Refusal := endCommand w s (runWord w (s.setCmd w))

/-! ### The register window -/

/-- The offset of a bus address in the 64-byte window at `BASE` (R21, R68), `none` outside it (log 5). -/
def windowOffset (c : Config) (addr : Word) : Option (BitVec 6) :=
  if (addr - c.base).toNat < 64 then some ((addr - c.base).setWidth 6) else none

/-- An aligned 32-bit access (R67). DESIGN CHOICE (log 21): "aligned" is read of the offset in the window, not of the bus
address; the two agree when `BASE` is a multiple of 4, which the spec does not demand. -/
def isRegisterAccess (off : BitVec 6) (size : AccessSize) : Bool := size == .word && off.extractLsb' 0 2 == 0

/-- What a host read of the window returns (R21): reserved offsets and `STATUS[31:8]` read 0. -/
def State.readRegister (s : State) (off : BitVec 6) : Word :=
  if off = 0x00#6 then s.cmd
  else if off = 0x04#6 then s.statusWord
  else if off = 0x08#6 then s.arg0
  else if off = 0x0C#6 then s.arg1
  else if off = 0x10#6 then s.arg2
  else if off = 0x14#6 then s.arg3
  else if off = 0x18#6 then s.res0
  else if off = 0x1C#6 then s.res1
  else if off = 0x20#6 then s.res2
  else 0

/-- `STATUS` and the results, whose last read ends the critical section of a command (R286). -/
def isResult (off : BitVec 6) : Bool := off == 0x04#6 || off == 0x18#6 || off == 0x1C#6 || off == 0x20#6

/-- A host read of the window. The host's write of a byte its command read was inside the section if a read of a result
follows ("its last read of `RES0` to `RES2` and `STATUS` for that command"), and is refused then (R286; log 22). -/
def hostRegRead (off : BitVec 6) (s : State) : Host.Outcome State Fault Refusal :=
  if isResult off && s.hostSection.overwritten then .refused .criticalSection
  else .next (s.observe (s.readRegister off))

/-- The host's write of an operand register: stored (R23), and the critical section is open (R286). -/
def State.hostSetArg (s : State) (k : Fin 4) (w : Word) : State := (s.setArg k w).setSection (s.hostSection.opened k)

/-- A host write of the window (R21 to R24): `CMD` starts a command, the operand registers are stored, and writes to
`STATUS`, the results and the reserved offsets are ignored. -/
def writeRegister (off : BitVec 6) (w : Word) (s : State) : Host.Outcome State Fault Refusal :=
  if off = 0x00#6 then startCommand w s
  else if off = 0x08#6 then .next (s.hostSetArg 0 w)
  else if off = 0x0C#6 then .next (s.hostSetArg 1 w)
  else if off = 0x10#6 then .next (s.hostSetArg 2 w)
  else if off = 0x14#6 then .next (s.hostSetArg 3 w)
  else .next s

/-- The checks every register access is put to, and then the access. -/
def registerAccess (addr : Word) (size : AccessSize) (s : State)
    (k : BitVec 6 → Host.Outcome State Fault Refusal) : Host.Outcome State Fault Refusal :=
  match windowOffset s.cfg addr with
  | none => .refused .outsideWindow
  | some off => if isRegisterAccess off size then k off else .refused .registerAccess

/-! ### The host's accesses to its buffer memory -/

/-- The checks a host access to one byte is put to (log 16): the byte exists, and it has no side effects. -/
def hostByteAccess (addr : Word) (s : State) (k : Host.Outcome State Fault Refusal) : Host.Outcome State Fault Refusal :=
  if admitted s.cfg addr.toNat 1 then
    if touchesDevice s.cfg addr.toNat 1 then .refused .deviceBuffer else k
  else .fault .hostBufferAbsent

/-- `MEM addr: v` (R90), one byte, noted for the critical section (R286; log 22). -/
def hostMemWrite (addr : Word) (v : Byte) (s : State) : Host.Outcome State Fault Refusal :=
  hostByteAccess addr s
    (.next ((s.setMem (s.mem.write addr.toNat v)).setSection (s.hostSection.noteWrite addr.toNat)))

/-- The host's read of one byte: every block write of a command is seen after `finish` (R70). -/
def hostMemRead (addr : Word) (s : State) : Host.Outcome State Fault Refusal :=
  hostByteAccess addr s (.next (s.observe (zext32 (s.mem.read addr.toNat))))

/-! ### Reset -/

/-- Reset (R280): every register and all internal state get their reset values; buffer memory is not written. What is no
state of the block stays: the parameters, the pending actions, what the host has read, the count of free bytes (log 19). The
host's critical section is over (log 22). -/
def State.afterReset (s : State) : State :=
  { State.reset with mem := s.mem, cfg := s.cfg, host := s.host, hostReads := s.hostReads, draws := s.draws }

/-- The write footprint of a command that ran to `t` from `s`: only `FRAME_ENC` writes memory, and only when it ends `OK`
(R152, R281). -/
def writeFootprint (w : Word) (s t : State) : Option (Nat × Nat) :=
  match decode w with
  | .ok (.frameEnc _ _) =>
    if t.status = Code.ok.toByte then some (s.arg2.toNat, frameSize s.payloadLen) else none
  | _ => none

/-- The bytes of the range hold any value (R281). -/
def State.smearRange (s : State) (a n : Nat) : State :=
  { s with mem := s.mem.smear s.draws a n, draws := s.draws + n }

/-- Reset while the command of `w` runs (R281): the command is abandoned. A stuck command has made no access (R64), so
reset finds memory as it was; a command the spec refuses stays refused (log 12). -/
def resetDuringCommand (w : Word) (s : State) : Host.Outcome State Fault Refusal :=
  match startCommand w s with
  | .refused r => .refused r
  | .fault _ => .next s.afterReset
  | .next t =>
    match writeFootprint w s t with
    | some (a, n) => .next (s.smearRange a n).afterReset
    | none => .next s.afterReset

/-! ### One action -/

/-- What one action of the host or of the reset input does. A breach of R286 is refused: another agent's access at once, the
host's own write of a buffer the command reads where it is complete (log 22). -/
def perform (a : HostAction) (s : State) : Host.Outcome State Fault Refusal :=
  match a with
  | .regWrite addr size data => registerAccess addr size s fun off => writeRegister off data s
  | .regRead addr size => registerAccess addr size s fun off => hostRegRead off s
  | .memWrite addr v => hostMemWrite addr v s
  | .memRead addr => hostMemRead addr s
  | .reset => .next s.afterReset
  | .resetDuring w => resetDuringCommand w s
  | .foreignAccess => .refused .foreignAgent

/-- The write that issues the command word `w`: `CMD` is at offset 0 of the window (R21). -/
def cmdWrite (c : Config) (w : Word) : HostAction := .regWrite c.base .word w

end Sys2Proof.Machine
end

