-- ==== Sys2Proof/Machine/Step.lean ====
section
/-! DEFINITION. One step of the machine: the oldest pending action, or nothing while the block is idle (10_state.md R20,
R22, R26; 70_reset_and_hazards.md R282; 60_exceptions.md R264). -/

namespace Sys2Proof.Machine

/-- One step. With nothing pending the block waits for a write to `CMD` and keeps all its state (R264, R282; log 6). -/
def step (s : State) : Host.Outcome State Fault Refusal :=
  match s.host with
  | [] => .next s
  | a :: rest => perform a (s.setHost rest)

/-- `s` with the host's write of the command word to `CMD` as the next pending action, so that the next step stores the
word in `CMD` and runs it (R22; log 1). The host has written no byte since its operands, so R286 does not refuse it (log 22). -/
def State.withFetchWord (s : State) (nbits w : Nat) : State :=
  (s.setHost (cmdWrite s.cfg (BitVec.ofNat 32 (w % 2 ^ nbits)) :: s.host)).setSection
    { s.hostSection with written := [] }

end Sys2Proof.Machine
end

