-- ==== Sys2Proof/Safety.lean ====
section
/-! DEFINITION. The terms the claims use: what a host may ask for (accessible buffers, a well-formed platform), what a
command must leave alone, and the invariant of the block. -/

namespace Sys2Proof.Machine

/-! ### Accessible buffers -/

/-- The block may access the range (20_memory.md R63), and it has no side-effecting location (R66): what the host owes
before a command that reads or writes memory completes. -/
def State.accessible (s : State) (a n : Nat) : Bool :=
  admitted s.cfg a n && !touchesDevice s.cfg a n

/-! ### Well-formed platforms (log 3, log 5) -/

/-- Regions are not empty, lie inside the 32-bit space from `lo` on, rise, and leave a gap between two: maximal runs. -/
def regionsFrom (lo : Nat) : List Region → Bool
  | [] => true
  | r :: rest =>
    decide (lo ≤ r.base) && decide (0 < r.size) && decide (r.base + r.size ≤ addrTop) &&
      regionsFrom (r.base + r.size + 1) rest

/-- The regions are maximal runs, and the window is 4-aligned and does not wrap. A term of the claims only: no step checks
it (log 5, log 21). -/
def platformOk (c : Config) : Bool :=
  regionsFrom 0 c.regions && c.base.extractLsb' 0 2 == 0 && decide (c.base.toNat + 64 ≤ addrTop)

/-! ### Frames: what is left alone -/

/-- The internal state of 10_state.md R30 to R46 is the same. -/
def SameInternal (s t : State) : Prop :=
  t.deviceAddr = s.deviceAddr ∧ t.numPorts = s.numPorts ∧ t.route = s.route ∧ t.vc = s.vc ∧ t.link = s.link

/-- Every byte of memory reads the same. -/
def SameMemory (s t : State) : Prop := ∀ a : Nat, t.mem.read a = s.mem.read a

/-- Every byte outside `a .. a+n-1` reads the same. -/
def SameMemoryOutside (s t : State) (a n : Nat) : Prop :=
  ∀ x : Nat, (x < a ∨ a + n ≤ x) → t.mem.read x = s.mem.read x

/-- What no command writes: `CMD` and the operand registers (R21, R23), the parameters, the host's pending actions, what
the host has read, its critical section, and the count of free bytes. -/
def SameHostSide (s t : State) : Prop :=
  t.cmd = s.cmd ∧ t.arg0 = s.arg0 ∧ t.arg1 = s.arg1 ∧ t.arg2 = s.arg2 ∧ t.arg3 = s.arg3 ∧ t.cfg = s.cfg ∧
    t.host = s.host ∧ t.hostReads = s.hostReads ∧ t.hostSection = s.hostSection ∧ t.draws = s.draws

/-- `STATUS` and the three results are what `finish(code, r0, r1, r2)` leaves (00_scope.md R10). -/
def Finished (t : State) (c : Code) (r0 r1 r2 : Word) : Prop :=
  t.status = c.toByte ∧ t.res0 = r0 ∧ t.res1 = r1 ∧ t.res2 = r2

/-- `finish` and nothing else: the results are as said, and everything but `STATUS` and the results is the same. -/
def FinishedOnly (s t : State) (c : Code) (r0 r1 r2 : Word) : Prop :=
  Finished t c r0 r1 r2 ∧ SameHostSide s t ∧ SameInternal s t ∧ SameMemory s t

/-- The next state of an outcome, changed by `f`; a stop stays the stop it is. -/
def mapNext (f : State → State) : Host.Outcome State Fault Refusal → Host.Outcome State Fault Refusal
  | .next t => .next (f t)
  | .fault r => .fault r
  | .refused r => .refused r

/-- The internal state (R30 to R46) replaced by other contents. -/
def State.withInternal (s : State) (dev np : Byte) (route : Vector Byte 8) (vc : Vector Channel 16)
    (link : Vector Link 8) : State :=
  { s with deviceAddr := dev, numPorts := np, route := route, vc := vc, link := link }

/-- Every register and all internal state hold their reset values (70_reset_and_hazards.md R280). -/
def HoldsResetValues (t : State) : Prop :=
  t.cmd = 0 ∧ t.status = Code.ok.toByte ∧ t.arg0 = 0 ∧ t.arg1 = 0 ∧ t.arg2 = 0 ∧ t.arg3 = 0 ∧
    t.res0 = 0 ∧ t.res1 = 0 ∧ t.res2 = 0 ∧ t.deviceAddr = 0 ∧ t.numPorts = 0 ∧
    (∀ d : Fin 8, t.route[d] = routeEmpty) ∧
    (∀ c : Fin 16, (t.vc[c]).active = false ∧ (t.vc[c]).credits = 64) ∧
    ∀ p : Fin 8, t.link[p] =
      { portId := BitVec.ofNat 8 p, state := .uninitialized, txPackets := 0, rxPackets := 0, errors := 0, bitRate := 0,
        disconnectTimeout := 0, maxRxCredits := 0, crcEnable := 0, rxCredits := 0, txCredits := 0 }

/-! ### The invariant -/

/-- `num_ports` holds 0 to 8 (R31). -/
def State.PortsOk (s : State) : Prop := s.numPorts.toNat ≤ portCap

/-- A route is empty or names a port below `num_ports` (R32). -/
def State.RoutesOk (s : State) : Prop := ∀ d : Fin 8, s.route[d] = routeEmpty ∨ s.route[d] < s.numPorts

/-- `STATUS` holds a code some command writes, so neither reserved code (R250, R255). -/
def State.StatusOk (s : State) : Prop := ∃ c ∈ Code.written, s.status = c.toByte

/-- Every link entry has its index as `port_id`, no receive and no error count (R44), all its receive credits and no
transmit credit (R45). -/
def State.LinksOk (s : State) : Prop :=
  ∀ p : Fin 8, (s.link[p]).portId = BitVec.ofNat 8 p ∧ (s.link[p]).rxPackets = 0 ∧ (s.link[p]).errors = 0 ∧
    (s.link[p]).rxCredits = (s.link[p]).maxRxCredits ∧ (s.link[p]).txCredits = 0

/-- Every channel has its default credits (R33, R45). -/
def State.ChannelsOk (s : State) : Prop := ∀ c : Fin 16, (s.vc[c]).credits = vcDefaultCredits

/-- What every step keeps. -/
def State.Inv (s : State) : Prop :=
  s.mem.wf = true ∧ s.PortsOk ∧ s.RoutesOk ∧ s.StatusOk ∧ s.LinksOk ∧ s.ChannelsOk

end Sys2Proof.Machine
end

