-- ==== Sys2Proof/Certificates/Slice0/Obligations.lean ====
section
/-! DEFINITION. The statements for the provers. Each docstring names the rule of spec/ a statement formalises, or says what
it is derived from. Every statement holds for every choice of the parameters, because they are data of the state (log 2). -/

open Sys2Proof Sys2Proof.Machine

/-! ### Command words (30_encoding.md)

A statement that formalises an instruction's rule also gives the instruction's word, as `assemble OPC F1 F2 F3`. -/

/-- Decode and encode agree: no operand bit of any command is lost, at any value its field admits. Derived from R81, R83. -/
def Obligations.DecodeAfterEncodeGivesTheCommand : Prop :=
  ∀ i : Instr, decode (encode i) = .ok i

/-- The other direction: a word that decodes is the word of its command, so a command has one word. Derived from R82. -/
def Obligations.EncodeAfterDecodeGivesTheWord : Prop :=
  ∀ (w : Word) (i : Instr), decode w = .ok i → encode i = w

/-- R82: `(w & mask) == match` decides a command completely, row by row; every other word, one with a listed opcode and a
nonzero unused bit as well as one with an unknown opcode, is illegal and reported so. -/
def Obligations.MaskAndMatchDecideTheCommand : Prop :=
  ∀ w : Word,
    (∀ r ∈ opTable, r.accepts w = true ↔ ∃ i, decode w = .ok i ∧ i.mnemonic = r.mnemonic) ∧
    (wellFormed w = false → ∀ s : State, runWord w s = .next (s.finish .illegalCommand 0 0 0))

/-- No word is accepted by two rows of the opcode map. Derived from R80, R82. -/
def Obligations.OpcodeRowsDoNotOverlap : Prop :=
  ∀ r ∈ opTable, ∀ r' ∈ opTable, r ≠ r' → ∀ w : Word, ¬(r.accepts w = true ∧ r'.accepts w = true)

/-- Words written out in the spec's examples decode to the commands they stand for (R114, R115, R152, R181, R221, R223). -/
def Obligations.ExampleWordsDecode : Prop :=
  decode 0x00004101 = .ok (.charEnc 0x41) ∧ decode 0x00014102 = .ok (.charDec 0x41 1) ∧
  decode 0x00000003 = .ok .crc16 ∧ decode 0x00010211 = .ok (.frameEnc 0x02 0x01) ∧
  decode 0x000C0120 = .ok (.rtrInit 0x01 12) ∧ decode 0x00010030 = .ok (.linkInit 0 1) ∧
  decode 0x00030031 = .ok (.linkSetState 0 3)

/-! ### One step (10_state.md section 2) -/

/-- A step runs the decoded command: when the next action is the host's write of `w` to `CMD` and `w` decodes to `i`, the
step stores `w` in `CMD` and is `exec i` there, the action taken from the queue. What the step adds: the host's critical
section goes on with what the command read, and a command that read a byte the host wrote in its section is refused.
Derived from R22, R286, log 1, log 21 and log 22. -/
def Obligations.StepRunsTheDecodedCommand : Prop :=
  ∀ (s : State) (w : Word) (rest : List HostAction) (i : Instr),
    s.host = cmdWrite s.cfg w :: rest → decode w = .ok i →
    ((s.setHost rest).setCmd w).cmd = w ∧ ((s.setHost rest).setCmd w).host = rest ∧
    (∀ f, exec i ((s.setHost rest).setCmd w) = .fault f → step s = .fault f) ∧
    (∀ r, exec i ((s.setHost rest).setCmd w) = .refused r → step s = .refused r) ∧
    ∀ t, exec i ((s.setHost rest).setCmd w) = .next t →
      (s.hostSection.breaks (argsRead i) (readsOf i s t) = false →
        step s = .next (t.setSection (s.hostSection.afterCommand (argsRead i) (readsOf i s t)))) ∧
      (s.hostSection.breaks (argsRead i) (readsOf i s t) = true → step s = .refused .criticalSection) ∧
      (s.hostSection.written = [] → s.hostSection.breaks (argsRead i) (readsOf i s t) = false)

/-- A step whose next action is the host's write to `CMD` of a word that decodes to no command ends with
`finish(ILLEGAL_COMMAND)`; it does not access memory or change the internal state. Derived from R256, log 1, log 21, and
log 22 (the host's critical section is closed: the word reads nothing). -/
def Obligations.IllegalWordOnlyReports : Prop :=
  ∀ (s : State) (w : Word) (rest : List HostAction),
    s.host = cmdWrite s.cfg w :: rest → (∀ i, decode w ≠ .ok i) →
    ∃ t, step s = .next t ∧
      FinishedOnly (((s.setHost rest).setCmd w).setSection .closed) t .illegalCommand 0 0 0

/-- With no action pending the block is idle and keeps all of its state. Derived from R264, R282 and log 6. -/
def Obligations.IdleBlockKeepsItsState : Prop :=
  ∀ s : State, s.host = [] → step s = .next s

/-- A host read of a 32-bit register at an aligned offset returns what the register map says, and changes nothing but what
the host has seen. Derived from R21, R24, R25 and log 17. The model's choices: the offset, not the bus address, is aligned
(log 21); a window that passes 2^32 goes on at 0 (log 5); the premise on a result leaves out a read that is refused (log 22). -/
def Obligations.RegisterReadReturnsTheMap : Prop :=
  ∀ (s : State) (rest : List HostAction) (off : BitVec 6),
    off.extractLsb' 0 2 = 0 → s.host = .regRead (s.cfg.base + off.setWidth 32) .word :: rest →
    (off = 0x04 ∨ off = 0x18 ∨ off = 0x1C ∨ off = 0x20 → s.hostSection.overwritten = false) →
    ∃ v : Word, step s = .next ((s.setHost rest).observe v) ∧
      (off = 0x00 → v = s.cmd) ∧ (off = 0x04 → v = s.status.setWidth 32) ∧
      (off = 0x08 → v = s.arg0) ∧ (off = 0x0C → v = s.arg1) ∧ (off = 0x10 → v = s.arg2) ∧ (off = 0x14 → v = s.arg3) ∧
      (off = 0x18 → v = s.res0) ∧ (off = 0x1C → v = s.res1) ∧ (off = 0x20 → v = s.res2) ∧
      (0x24 ≤ off.toNat → v = 0)

/-- A host write of a 32-bit register at an aligned offset: the operand registers are stored; writes of `STATUS`, of the
results and of the reserved offsets are ignored. (`CMD`: `StepRunsTheDecodedCommand`.) Derived from R21, R23, R24. The
model's choices: the offset, not the bus address, is aligned (log 21); a window that passes 2^32 goes on at 0 (log 5); an
operand write opens the host's critical section (log 22). -/
def Obligations.RegisterWriteFollowsTheMap : Prop :=
  ∀ (s : State) (rest : List HostAction) (off : BitVec 6) (w : Word),
    s.host = .regWrite (s.cfg.base + off.setWidth 32) .word w :: rest →
    (off = 0x08 → step s = .next { s with host := rest, arg0 := w, hostSection := s.hostSection.opened 0 }) ∧
    (off = 0x0C → step s = .next { s with host := rest, arg1 := w, hostSection := s.hostSection.opened 1 }) ∧
    (off = 0x10 → step s = .next { s with host := rest, arg2 := w, hostSection := s.hostSection.opened 2 }) ∧
    (off = 0x14 → step s = .next { s with host := rest, arg3 := w, hostSection := s.hostSection.opened 3 }) ∧
    (off = 0x04 ∨ (off.extractLsb' 0 2 = 0 ∧ 0x18 ≤ off.toNat) → step s = .next { s with host := rest })

/-- R25: `STATUS[7:0]` holds the result code of the last command (one of that command's own, kept until the next command or
reset), `STATUS[31:8]` reads 0, and after reset, before any command, `STATUS` reads `OK`. -/
def Obligations.StatusReadsTheResultCode : Prop :=
  (∀ (w : Word) (s t : State), startCommand w s = .next t →
    (∀ i, decode w = .ok i → ∃ c ∈ codesOf i, t.readRegister 0x04 = zext32 c.toByte) ∧
      ((∀ i, decode w ≠ .ok i) → t.readRegister 0x04 = zext32 Code.illegalCommand.toByte)) ∧
  (∀ s t : State, step s = .next t → t.status ≠ s.status → ∃ rest,
    (∃ w, s.host = cmdWrite s.cfg w :: rest) ∨ s.host = .reset :: rest ∨ ∃ w, s.host = .resetDuring w :: rest) ∧
  (∀ s : State, (s.readRegister 0x04).extractLsb' 0 8 = s.status ∧ (s.readRegister 0x04).extractLsb' 8 24 = 0) ∧
  State.reset.readRegister 0x04 = zext32 Code.ok.toByte

/-- A narrow access to the register window or one at a misaligned offset, an access outside it, and another agent's access
inside the host's critical section, are refused by name. Derived from R67, R75, R286 (S4, U2). The model's choices: log 21
(what is misaligned), log 5 (what is outside), log 11 (one action stands for the other agent). -/
def Obligations.BreachesOfHostDutiesAreRefused : Prop :=
  ∀ (s : State) (rest : List HostAction) (size : AccessSize) (w : Word),
    (∀ off : BitVec 6, size ≠ .word ∨ off.extractLsb' 0 2 ≠ 0 →
      s.host = .regWrite (s.cfg.base + off.setWidth 32) size w :: rest ∨
        s.host = .regRead (s.cfg.base + off.setWidth 32) size :: rest →
      step s = .refused .registerAccess) ∧
    (∀ d : Word, 64 ≤ d.toNat →
      s.host = .regWrite (s.cfg.base + d) size w :: rest ∨ s.host = .regRead (s.cfg.base + d) size :: rest →
      step s = .refused .outsideWindow) ∧
    (s.host = .foreignAccess :: rest → step s = .refused .foreignAgent)

/-- The host's byte write is seen by its read, and no other byte changes; the read changes nothing but what the host has
seen; a byte that is not there, or that has side effects, stops both. Derived from R63, R66, R70, log 16, and log 22 (the
write is noted in the host's critical section). -/
def Obligations.HostByteAccessesReadAndWriteMemory : Prop :=
  ∀ (s : State) (rest : List HostAction) (a : Word) (v : Byte), s.mem.wf = true →
    (s.accessible a.toNat 1 = true → s.host = .memWrite a v :: rest →
      ∃ t, step s = .next t ∧ t = { s with host := rest, mem := t.mem, hostSection := s.hostSection.noteWrite a.toNat } ∧ t.mem.read a.toNat = v ∧
        SameMemoryOutside s t a.toNat 1) ∧
    (s.accessible a.toNat 1 = true → s.host = .memRead a :: rest →
      step s = .next { s with host := rest, hostReads := zext32 (s.mem.read a.toNat) :: s.hostReads }) ∧
    (admitted s.cfg a.toNat 1 = false → s.host = .memWrite a v :: rest ∨ s.host = .memRead a :: rest →
      step s = .fault .hostBufferAbsent) ∧
    (admitted s.cfg a.toNat 1 = true → touchesDevice s.cfg a.toNat 1 = true →
      s.host = .memWrite a v :: rest ∨ s.host = .memRead a :: rest → step s = .refused .deviceBuffer)

/-! ### Every command at once (60_exceptions.md) -/

/-- A command that ends gives one of the codes R251 lists for it. Derived: R251 is marked derived. -/
def Obligations.CommandsGiveOnlyTheirCodes : Prop :=
  ∀ (i : Instr) (s t : State), exec i s = .next t → ∃ c ∈ codesOf i, t.status = c.toByte

/-- R255: the reserved codes 0x06 and 0x14 are never written, by any command word. -/
def Obligations.ReservedCodesAreNeverWritten : Prop :=
  ∀ (w : Word) (s t : State), runWord w s = .next t →
    t.status ≠ Code.encodingOverflow.toByte ∧ t.status ≠ Code.charInvalid.toByte ∧
      Code.encodingOverflow.toByte = 0x06 ∧ Code.charInvalid.toByte = 0x14

/-- R252: an error is a status return: `STATUS` and the results are the only things the command writes; and no command
increments the link `errors` counter. -/
def Obligations.ErrorsWriteOnlyStatusAndResults : Prop :=
  ∀ (w : Word) (s t : State), runWord w s = .next t →
    (∀ c : Code, c.isError = true → t.status = c.toByte → FinishedOnly s t c 0 0 0) ∧
    ∀ p : Fin 8, (t.link[p]).errors = (s.link[p]).errors ∨ (t.link[p]).errors = 0

/-- No command reads `STATUS` or a result register: what they held before makes no difference. Derived from R24, R47. -/
def Obligations.NoCommandReadsStatusOrResults : Prop :=
  ∀ (w : Word) (s : State) (c : Code) (r0 r1 r2 : Word), runWord w (s.finish c r0 r1 r2) = runWord w s

/-- R23: no command changes an operand register (nor `CMD`, nor anything of the host's); only a host write of a register (or
reset) does; and a command reads only the ARG registers its rule names: another one may hold any value. -/
def Obligations.OperandRegistersAreTheHosts : Prop :=
  (∀ (i : Instr) (s t : State), exec i s = .next t → SameHostSide s t) ∧
  (∀ s t : State, step s = .next t →
    t.arg0 ≠ s.arg0 ∨ t.arg1 ≠ s.arg1 ∨ t.arg2 ≠ s.arg2 ∨ t.arg3 ≠ s.arg3 → ∃ rest,
    (∃ addr w, s.host = .regWrite addr .word w :: rest) ∨ s.host = .reset :: rest ∨
      ∃ w, s.host = .resetDuring w :: rest) ∧
  ∀ (i : Instr) (s : State) (k : Fin 4) (w : Word), k ∉ argsRead i →
    exec i (s.setArg k w) = mapNext (fun t => t.setArg k w) (exec i s)

/-- Which commands write which internal state, and that only `FRAME_ENC` writes memory. Derived from the "written by" of
R30 to R33, R40, R43, and from R281. -/
def Obligations.EachStateHasItsWriters : Prop :=
  ∀ (i : Instr) (s t : State), exec i s = .next t →
    (t.deviceAddr ≠ s.deviceAddr ∨ t.numPorts ≠ s.numPorts → ∃ a n, i = .rtrInit a n) ∧
    (t.route ≠ s.route → (∃ a n, i = .rtrInit a n) ∨ ∃ e o, i = .rtrAddRoute e o) ∧
    (t.vc ≠ s.vc → (∃ a n, i = .rtrInit a n) ∨ ∃ c, i = .rtrOpenCh c) ∧
    (∀ p : Fin 8, (t.link[p]).state ≠ (s.link[p]).state →
      (∃ a n, i = .rtrInit a n) ∨ (∃ q k, i = .linkInit q k) ∨ ∃ q st, i = .linkSetState q st) ∧
    (∀ p : Fin 8, (t.link[p]).txPackets ≠ (s.link[p]).txPackets →
      (∃ a n, i = .rtrInit a n) ∨ ∃ d, i = .rtrRoute d) ∧
    (∀ p : Fin 8, (t.link[p]).bitRate ≠ (s.link[p]).bitRate ∨
        (t.link[p]).disconnectTimeout ≠ (s.link[p]).disconnectTimeout ∨
        (t.link[p]).maxRxCredits ≠ (s.link[p]).maxRxCredits ∨ (t.link[p]).crcEnable ≠ (s.link[p]).crcEnable ∨
        (t.link[p]).rxCredits ≠ (s.link[p]).rxCredits ∨ (t.link[p]).txCredits ≠ (s.link[p]).txCredits →
      ∃ q k, i = .linkInit q k) ∧
    (∀ p : Fin 8, (t.link[p]).portId ≠ (s.link[p]).portId ∨ (t.link[p]).rxPackets ≠ (s.link[p]).rxPackets ∨
        (t.link[p]).errors ≠ (s.link[p]).errors →
      ∃ a n, i = .rtrInit a n) ∧
    (t.mem ≠ s.mem → ∃ d p, i = .frameEnc d p)

/-- The codec, CRC and frame commands read no internal state, so no link configuration (the CRC-enable flag least of all)
and no routing changes what they do. Derived from R46, R110, R180. -/
def Obligations.CodecAndFramesIgnoreInternalState : Prop :=
  ∀ (i : Instr) (s : State) (dev np : Byte) (route : Vector Byte 8) (vc : Vector Channel 16) (link : Vector Link 8),
    (∃ d, i = .charEnc d) ∨ (∃ b p, i = .charDec b p) ∨ i = .crc16 ∨ i = .frameSize ∨ (∃ d p, i = .frameEnc d p) ∨
      i = .frameDec →
    exec i (s.withInternal dev np route vc link) =
      mapNext (fun t => t.withInternal dev np route vc link) (exec i s)

/-- Routing reads no virtual channel. Derived from R33, R187 and 90_conflicts.md C3. -/
def Obligations.RoutingIgnoresVirtualChannels : Prop :=
  ∀ (s : State) (d : Byte) (vc : Vector Channel 16),
    exec (.rtrRoute d) { s with vc := vc } = mapNext (fun t => { t with vc := vc }) (exec (.rtrRoute d) s)

/-! ### Character codec (40_character_codec.md) -/

/-- R114: `CHAR_ENC d` ends `OK` with the byte, its parity and 0, and changes nothing else, for every byte. What `parity` is:
`ParityMakesTheWeightEven`. -/
def Obligations.CharEncGivesByteAndParity : Prop :=
  ∀ d : Byte, decode (assemble 0x01 d 0 0) = .ok (.charEnc d) ∧
    ∀ s : State, ∃ t, exec (.charEnc d) s = .next t ∧ FinishedOnly s t .ok (zext32 d) (zext32 (parity d)) 0

/-- R115: `CHAR_DEC b, p`: the parity check first; then a control value gives its marker's code and no data; any other byte
is data. Nothing else changes. -/
def Obligations.CharDecChecksParityThenClassifies : Prop :=
  (∀ (b : Byte) (p : BitVec 1) (s : State), decode (assemble 0x02 b (p.setWidth 8) 0) = .ok (.charDec b p) ∧
    (p ≠ parity b → ∃ t, exec (.charDec b p) s = .next t ∧ FinishedOnly s t .parityError 0 0 0) ∧
    (p = parity b → ∀ m : Marker,
      (b = 0 ∧ m = s.cfg.ctrlMap.of0) ∨ (b = 1 ∧ m = s.cfg.ctrlMap.of1) ∨ (b = 2 ∧ m = s.cfg.ctrlMap.of2) ∨
        (b = 3 ∧ m = s.cfg.ctrlMap.of3) →
      ∃ t, exec (.charDec b p) s = .next t ∧ FinishedOnly s t (codeOfMarker m) 0 0 0) ∧
    (p = parity b → 4 ≤ b.toNat →
      ∃ t, exec (.charDec b p) s = .next t ∧ FinishedOnly s t .ok (zext32 b) 0 0)) ∧
  codeOfMarker .escape = .charEscape ∧ codeOfMarker .flowControlToken = .charFct ∧
    codeOfMarker .endOfPacket = .charEop ∧ codeOfMarker .endOfErrorPacket = .charEep

/-- The parity bit is the number of ones mod 2, and flipping one bit of the byte flips it. Derived: R111 and R117 rest on
the spec's reading of "even parity" (D7, "from general knowledge"). -/
def Obligations.ParityMakesTheWeightEven : Prop :=
  ∀ b : Byte, (parity b).toNat = ((List.range 8).countP fun k => b.getLsbD k) % 2 ∧
    ∀ k : Fin 8, parity (b ^^^ BitVec.twoPow 8 k) ≠ parity b

/-- What `CHAR_ENC` gives, `CHAR_DEC` gives back for data, as a marker for 0 to 3; with the parity bit flipped it gives
`PARITY_ERROR`. Derived: R117 is marked derived. -/
def Obligations.CharacterRoundTrip : Prop :=
  ∀ (v : Byte) (s t : State), exec (.charEnc v) s = .next t →
    (4 ≤ v.toNat → ∃ u, exec (.charDec (t.res0.setWidth 8) (t.res1.setWidth 1)) t = .next u ∧
      Finished u .ok (zext32 v) 0 0) ∧
    (v.toNat < 4 → ∃ u m, exec (.charDec (t.res0.setWidth 8) (t.res1.setWidth 1)) t = .next u ∧
      ctrlMarker s.cfg.ctrlMap v = some m ∧ Finished u (codeOfMarker m) 0 0 0) ∧
    ∃ u, exec (.charDec (t.res0.setWidth 8) (~~~(t.res1.setWidth 1))) t = .next u ∧ Finished u .parityError 0 0 0

/-! ### CRC-16-CCITT (41_crc.md) -/

/-- R133: `CRC16` with a NULL address gives `CRC_INIT` whatever the length; with any other address it gives the CRC of the
bytes, or is stuck when the range is not admitted. Nothing else changes. -/
def Obligations.Crc16CommandGivesTheCrc : Prop :=
  decode 0x00000003 = .ok .crc16 ∧ ∀ s : State,
    (s.arg0 = 0 → ∃ t, exec .crc16 s = .next t ∧ FinishedOnly s t .ok (zext32 s.cfg.crcInit) 0 0) ∧
    (s.arg0 ≠ 0 → s.accessible s.arg0.toNat s.arg1.toNat = true →
      ∃ t, exec .crc16 s = .next t ∧
        FinishedOnly s t .ok (zext32 (crc16 s.cfg.crcInit (s.mem.readBytes s.arg0.toNat s.arg1.toNat))) 0 0) ∧
    (s.arg0 ≠ 0 → admitted s.cfg s.arg0.toNat s.arg1.toNat = false → exec .crc16 s = .fault .stuck)

/-- The CRC of memory is the loop of R131: `CRC_INIT` for no bytes, then byte by byte in ascending order, eight shifts a
byte, MSB first. Derived: the bit order and the final XOR are the spec's choice (D10, "from general knowledge"). -/
def Obligations.CrcIsTheBitSerialLoop : Prop :=
  (∀ (s : State) (a : Nat), s.crcOf a 0 = s.cfg.crcInit) ∧
  (∀ (s : State) (a n : Nat), s.crcOf a (n + 1) = crcByte (s.crcOf a n) (s.mem.read (a + n))) ∧
  ∀ (c : Half) (b : Byte), crcByte c b =
    (fun x : Half => if x.getLsbD 15 then (x <<< 1) ^^^ 0x1021 else x <<< 1)^[8] (c ^^^ (b.setWidth 16 <<< 8))

/-- The table-driven form computes the bit-serial one, with the 256 entries the spec prints. Derived: R132 is marked
derived. -/
def Obligations.TableDrivenCrcAgrees : Prop :=
  crcTable.length = 256 ∧ ∀ (c : Half) (b : Byte), crcByteTable c b = crcByte c b

/-- The vectors for `CRC_INIT` 0xFFFF and 0x0000. Derived: R134 is marked derived. -/
def Obligations.CrcVectors : Prop :=
  crc16 0xFFFF [0x00] = 0xE1F0 ∧ crc16 0xFFFF [0xFF] = 0xFF00 ∧ crc16 0xFFFF [0x41] = 0xB915 ∧
  crc16 0xFFFF [0x31, 0x32, 0x33, 0x34, 0x35, 0x36, 0x37, 0x38, 0x39] = 0x29B1 ∧
  crc16 0x0000 [0x31, 0x32, 0x33, 0x34, 0x35, 0x36, 0x37, 0x38, 0x39] = 0x31C3

/-- A sequence followed by its own CRC, big-endian, has CRC 0. Derived from R135 ("from general knowledge"). -/
def Obligations.AppendedCrcLeavesNoResidue : Prop :=
  ∀ (init : Half) (bytes : List Byte),
    crc16 init (bytes ++ [(crc16 init bytes).extractLsb' 8 8, (crc16 init bytes).extractLsb' 0 8]) = 0

/-- A change of one byte changes the CRC, wherever the byte stands. Derived from R135 ("from general knowledge"). -/
def Obligations.CrcDetectsOneChangedByte : Prop :=
  ∀ (init : Half) (before after : List Byte) (b b' : Byte), b ≠ b' →
    crc16 init (before ++ b :: after) ≠ crc16 init (before ++ b' :: after)

/-! ### Frame codec (42_frame_codec.md) -/

/-- R151: `FRAME_SIZE` gives N + 4 for N below 2^16, and `INVALID_ARGUMENT` otherwise. Nothing else changes. -/
def Obligations.FrameSizeIsPayloadPlusFour : Prop :=
  decode 0x00000010 = .ok .frameSize ∧ ∀ s : State,
    (s.arg1.toNat < 65536 → ∃ t, exec .frameSize s = .next t ∧
      FinishedOnly s t .ok (s.arg1 + 4) 0 0 ∧ t.res0.toNat = s.arg1.toNat + 4) ∧
    (65536 ≤ s.arg1.toNat → ∃ t, exec .frameSize s = .next t ∧ FinishedOnly s t .invalidArgument 0 0 0)

/-- R150, where `FRAME_ENC` completes: the N + 4 bytes at the destination are the target address, the protocol id, the payload
as it stood at the source, and the CRC of all of these, high byte first; `RES0` = N + 4; every byte outside them, every
register and all internal state stay. -/
def Obligations.FrameEncWritesTheFrame : Prop :=
  ∀ (d p : Byte) (s : State), s.mem.wf = true → s.arg2 ≠ 0 → s.arg1.toNat < 65536 →
    (s.arg0 = 0 → s.arg1 = 0) → s.arg1.toNat + 4 ≤ s.arg3.toNat →
    overlaps s.arg0.toNat s.arg1.toNat s.arg2.toNat (s.arg1.toNat + 4) = false →
    s.accessible s.arg2.toNat (s.arg1.toNat + 4) = true →
    (s.arg1 ≠ 0 → s.accessible s.arg0.toNat s.arg1.toNat = true) →
    ∃ t, exec (.frameEnc d p) s = .next t ∧ Finished t .ok (s.arg1 + 4) 0 0 ∧
      t.mem.read s.arg2.toNat = d ∧ t.mem.read (s.arg2.toNat + 1) = p ∧
      (∀ k, k < s.arg1.toNat → t.mem.read (s.arg2.toNat + 2 + k) = s.mem.read (s.arg0.toNat + k)) ∧
      t.mem.read (s.arg2.toNat + 2 + s.arg1.toNat) =
        (t.crcOf s.arg2.toNat (s.arg1.toNat + 2)).extractLsb' 8 8 ∧
      t.mem.read (s.arg2.toNat + 3 + s.arg1.toNat) =
        (t.crcOf s.arg2.toNat (s.arg1.toNat + 2)).extractLsb' 0 8 ∧
      SameMemoryOutside s t s.arg2.toNat (s.arg1.toNat + 4) ∧ SameHostSide s t ∧ SameInternal s t

/-- The argument checks of `FRAME_ENC`, in their order, each reported with no byte written and nothing else changed. Derived
from R152 (its errors 1 to 4), R254, D14. -/
def Obligations.FrameEncReportsTheFirstFailingCheck : Prop :=
  ∀ (d p : Byte) (s : State),
    (s.arg2 = 0 → ∃ t, exec (.frameEnc d p) s = .next t ∧ FinishedOnly s t .invalidArgument 0 0 0) ∧
    (s.arg2 ≠ 0 → 65536 ≤ s.arg1.toNat →
      ∃ t, exec (.frameEnc d p) s = .next t ∧ FinishedOnly s t .invalidArgument 0 0 0) ∧
    (s.arg2 ≠ 0 → s.arg1.toNat < 65536 → s.arg0 = 0 → s.arg1 ≠ 0 →
      ∃ t, exec (.frameEnc d p) s = .next t ∧ FinishedOnly s t .invalidArgument 0 0 0) ∧
    (s.arg2 ≠ 0 → s.arg1.toNat < 65536 → (s.arg0 = 0 → s.arg1 = 0) → s.arg3.toNat < s.arg1.toNat + 4 →
      ∃ t, exec (.frameEnc d p) s = .next t ∧ FinishedOnly s t .insufficientBuffer 0 0 0)

/-- R153: with N > 0, a payload range and a destination range that share an address are refused, once the checks that give a
status code have passed. -/
def Obligations.OverlappingFrameEncIsRefused : Prop :=
  ∀ (d p : Byte) (s : State) (x : Nat), s.arg2 ≠ 0 → s.arg0 ≠ 0 → s.arg1.toNat < 65536 →
    s.arg1.toNat + 4 ≤ s.arg3.toNat →
    s.arg0.toNat ≤ x → x < s.arg0.toNat + s.arg1.toNat → s.arg2.toNat ≤ x → x < s.arg2.toNat + (s.arg1.toNat + 4) →
    exec (.frameEnc d p) s = .refused .overlap

/-- R64: on the path that accesses memory, a footprint with a range that is not admitted leaves the command stuck. -/
def Obligations.UnadmittedFootprintIsStuck : Prop :=
  ∀ s : State,
    (s.arg0 ≠ 0 → admitted s.cfg s.arg0.toNat s.arg1.toNat = false → exec .crc16 s = .fault .stuck) ∧
    (s.arg0 ≠ 0 → 4 ≤ s.arg1.toNat → s.arg1.toNat ≤ 65539 → admitted s.cfg s.arg0.toNat s.arg1.toNat = false →
      exec .frameDec s = .fault .stuck) ∧
    ∀ d p : Byte, s.arg2 ≠ 0 → s.arg1.toNat < 65536 → (s.arg0 = 0 → s.arg1 = 0) →
      s.arg1.toNat + 4 ≤ s.arg3.toNat →
      overlaps s.arg0.toNat s.arg1.toNat s.arg2.toNat (s.arg1.toNat + 4) = false →
      (admitted s.cfg s.arg2.toNat (s.arg1.toNat + 4) = false ∨
        (s.arg1 ≠ 0 ∧ admitted s.cfg s.arg0.toNat s.arg1.toNat = false)) →
      exec (.frameEnc d p) s = .fault .stuck

/-- An admitted footprint on side-effecting locations is refused by name. Derived from R66, S5 and log 9. -/
def Obligations.DeviceFootprintIsRefused : Prop :=
  ∀ s : State,
    (s.arg0 ≠ 0 → admitted s.cfg s.arg0.toNat s.arg1.toNat = true →
      touchesDevice s.cfg s.arg0.toNat s.arg1.toNat = true →
      exec .crc16 s = .refused .deviceBuffer ∧
      (4 ≤ s.arg1.toNat → s.arg1.toNat ≤ 65539 → exec .frameDec s = .refused .deviceBuffer)) ∧
    ∀ d p : Byte, s.arg2 ≠ 0 → s.arg1.toNat < 65536 → (s.arg0 = 0 → s.arg1 = 0) →
      s.arg1.toNat + 4 ≤ s.arg3.toNat →
      overlaps s.arg0.toNat s.arg1.toNat s.arg2.toNat (s.arg1.toNat + 4) = false →
      admitted s.cfg s.arg2.toNat (s.arg1.toNat + 4) = true →
      (s.arg1 ≠ 0 → admitted s.cfg s.arg0.toNat s.arg1.toNat = true) →
      (touchesDevice s.cfg s.arg2.toNat (s.arg1.toNat + 4) = true ∨
        (s.arg1 ≠ 0 ∧ touchesDevice s.cfg s.arg0.toNat s.arg1.toNat = true)) →
      exec (.frameEnc d p) s = .refused .deviceBuffer

/-- R155: `FRAME_DEC`, its checks in their order and its results: NULL buffer, length bounds, footprint, checksum; then the
header in `RES0` and the payload view in `RES1` and `RES2`. No path writes memory or internal state. -/
def Obligations.FrameDecChecksAndReturnsTheView : Prop :=
  decode 0x00000012 = .ok .frameDec ∧ ∀ s : State,
    (s.arg0 = 0 → ∃ t, exec .frameDec s = .next t ∧ FinishedOnly s t .invalidArgument 0 0 0) ∧
    (s.arg0 ≠ 0 → s.arg1.toNat < 4 ∨ 65539 < s.arg1.toNat →
      ∃ t, exec .frameDec s = .next t ∧ FinishedOnly s t .malformedFrame 0 0 0) ∧
    (s.arg0 ≠ 0 → 4 ≤ s.arg1.toNat → s.arg1.toNat ≤ 65539 → admitted s.cfg s.arg0.toNat s.arg1.toNat = false →
      exec .frameDec s = .fault .stuck) ∧
    (s.arg0 ≠ 0 → 4 ≤ s.arg1.toNat → s.arg1.toNat ≤ 65539 → s.accessible s.arg0.toNat s.arg1.toNat = true →
      s.crcOf s.arg0.toNat (s.arg1.toNat - 2) ≠
        s.mem.read (s.arg0.toNat + s.arg1.toNat - 2) ++ s.mem.read (s.arg0.toNat + s.arg1.toNat - 1) →
      ∃ t, exec .frameDec s = .next t ∧ FinishedOnly s t .checksumMismatch 0 0 0) ∧
    (s.arg0 ≠ 0 → 4 ≤ s.arg1.toNat → s.arg1.toNat ≤ 65539 → s.accessible s.arg0.toNat s.arg1.toNat = true →
      s.crcOf s.arg0.toNat (s.arg1.toNat - 2) =
        s.mem.read (s.arg0.toNat + s.arg1.toNat - 2) ++ s.mem.read (s.arg0.toNat + s.arg1.toNat - 1) →
      ∃ t, exec .frameDec s = .next t ∧
        FinishedOnly s t .ok (zext32 (s.mem.read (s.arg0.toNat + 1) ++ s.mem.read s.arg0.toNat)) (s.arg0 + 2)
          (s.arg1 - 4))

/-- Round trip: decoding the N + 4 bytes that a successful `FRAME_ENC` wrote gives the target address, the protocol id and a
view of the N payload bytes, for every payload and every preset. Derived: R156 is marked derived. -/
def Obligations.DecodingAnEncodedFrameGivesItBack : Prop :=
  ∀ (d p : Byte) (s t : State), s.mem.wf = true → exec (.frameEnc d p) s = .next t → t.status = Code.ok.toByte →
    ∃ u, exec .frameDec ((t.setArg 0 s.arg2).setArg 1 (s.arg1 + 4)) = .next u ∧
      Finished u .ok (zext32 (p ++ d)) (s.arg2 + 2) s.arg1 ∧
      u.mem.readBytes (s.arg2.toNat + 2) s.arg1.toNat = s.mem.readBytes s.arg0.toNat s.arg1.toNat

/-- Single-byte corruption: where `FRAME_DEC` accepts a frame, changing any one of its bytes to a different value makes it
report `CHECKSUM_MISMATCH`. Derived: R156 is marked derived. -/
def Obligations.OneCorruptedByteIsDetected : Prop :=
  ∀ (s t : State) (x : Nat) (v : Byte), s.mem.wf = true → exec .frameDec s = .next t → t.status = Code.ok.toByte →
    s.arg0.toNat ≤ x → x < s.arg0.toNat + s.arg1.toNat → v ≠ s.mem.read x →
    ∃ u, exec .frameDec (s.setMem (s.mem.write x v)) = .next u ∧ Finished u .checksumMismatch 0 0 0

/-- `Admit` is decided byte by byte on a well-formed platform: true for no bytes, false past 2^32, and otherwise exactly when
each byte is there. Derived from R63; that single bytes decide it is log 3. -/
def Obligations.AdmitIsDecidedByteByByte : Prop :=
  ∀ (c : Config) (a n : Nat), platformOk c = true →
    (admitted c a n = true ↔ n = 0 ∨ (a + n ≤ 2 ^ 32 ∧ ∀ k, k < n → admitted c (a + k) 1 = true))

/-! ### Router (43_router.md) -/

/-- R181: `RTR_INIT a, n` sets the address and the clamped port count, gives every link its id, state Uninitialized and zero
counters, leaves configuration and credits, deactivates every channel with 64 credits, and clears every route. -/
def Obligations.RtrInitInitialisesTheRouter : Prop :=
  ∀ (a n : Byte) (s : State), decode (assemble 0x20 a n 0) = .ok (.rtrInit a n) ∧
    ∃ t, exec (.rtrInit a n) s = .next t ∧ Finished t .ok 0 0 0 ∧
    t.deviceAddr = a ∧ t.numPorts.toNat = min n.toNat 8 ∧
    (∀ p : Fin 8, t.link[p] = { s.link[p] with portId := BitVec.ofNat 8 p, state := .uninitialized, txPackets := 0, rxPackets := 0, errors := 0 }) ∧
    (∀ c : Fin 16, (t.vc[c]).active = false ∧ (t.vc[c]).credits = 64) ∧
    (∀ d : Fin 8, t.route[d] = 0xFF) ∧
    SameHostSide s t ∧ SameMemory s t

/-- R183: `RTR_ADD_ROUTE e, o` ends `OK` always; it overwrites the entry when both operands are in range, and is silently
ignored otherwise. Nothing else changes. -/
def Obligations.RtrAddRouteStoresOrIgnores : Prop :=
  ∀ (e o : Byte) (s : State), decode (assemble 0x21 e o 0) = .ok (.rtrAddRoute e o) ∧
    (∀ d : Fin 8, e.toNat = d → o.toNat < s.numPorts.toNat →
      ∃ t, exec (.rtrAddRoute e o) s = .next t ∧ Finished t .ok 0 0 0 ∧ t.route[d] = o ∧
        (∀ d' : Fin 8, d' ≠ d → t.route[d'] = s.route[d']) ∧ t.deviceAddr = s.deviceAddr ∧ t.numPorts = s.numPorts ∧
        t.vc = s.vc ∧ t.link = s.link ∧ SameHostSide s t ∧ SameMemory s t) ∧
    (8 ≤ e.toNat ∨ s.numPorts.toNat ≤ o.toNat →
      ∃ t, exec (.rtrAddRoute e o) s = .next t ∧ FinishedOnly s t .ok 0 0 0)

/-- R185: `RTR_OPEN_CH c` ends `OK` with the success flag: 1 and the channel active, its credits as they were, or 0 for
c >= 16. Nothing else changes. -/
def Obligations.RtrOpenChActivatesTheChannel : Prop :=
  ∀ (c : Byte) (s : State), decode (assemble 0x22 c 0 0) = .ok (.rtrOpenCh c) ∧
    (∀ k : Fin 16, c.toNat = k →
      ∃ t, exec (.rtrOpenCh c) s = .next t ∧ Finished t .ok 1 0 0 ∧ (t.vc[k]).active = true ∧
        (t.vc[k]).credits = (s.vc[k]).credits ∧ (∀ k' : Fin 16, k' ≠ k → t.vc[k'] = s.vc[k']) ∧
        t.deviceAddr = s.deviceAddr ∧ t.numPorts = s.numPorts ∧ t.route = s.route ∧ t.link = s.link ∧
        SameHostSide s t ∧ SameMemory s t) ∧
    (16 ≤ c.toNat → ∃ t, exec (.rtrOpenCh c) s = .next t ∧ FinishedOnly s t .ok 0 0 0)

/-- R187: `RTR_ROUTE d`: local delivery, then table range, port range and link state; on success `RES0` is the port and only
that link's `tx_packets` changes, by one mod 2^32. The premise `PortsOk` (R31) is kept by every step:
`StepKeepsTheInvariant`. -/
def Obligations.RtrRouteChoosesThePort : Prop :=
  ∀ (d : Byte) (s : State), s.PortsOk → decode (assemble 0x23 d 0 0) = .ok (.rtrRoute d) ∧
    (d = s.deviceAddr → ∃ t, exec (.rtrRoute d) s = .next t ∧ FinishedOnly s t .notRouted 0 0 0) ∧
    (d ≠ s.deviceAddr → 8 ≤ d.toNat →
      ∃ t, exec (.rtrRoute d) s = .next t ∧ FinishedOnly s t .routingMiss 0 0 0) ∧
    ∀ e : Fin 8, d ≠ s.deviceAddr → d.toNat = e →
      (s.numPorts.toNat ≤ (s.route[e]).toNat →
        ∃ t, exec (.rtrRoute d) s = .next t ∧ FinishedOnly s t .routingMiss 0 0 0) ∧
      ∀ p : Fin 8, (s.route[e]).toNat = p → (s.route[e]).toNat < s.numPorts.toNat →
        ((s.link[p]).state ≠ .connected →
          ∃ t, exec (.rtrRoute d) s = .next t ∧ FinishedOnly s t .routingMiss 0 0 0) ∧
        ((s.link[p]).state = .connected →
          ∃ t, exec (.rtrRoute d) s = .next t ∧ Finished t .ok (zext32 (s.route[e])) 0 0 ∧
            t.link[p] = { s.link[p] with txPackets := (s.link[p]).txPackets + 1 } ∧
            (∀ q : Fin 8, q ≠ p → t.link[q] = s.link[q]) ∧ t.deviceAddr = s.deviceAddr ∧ t.numPorts = s.numPorts ∧
            t.route = s.route ∧ t.vc = s.vc ∧ SameHostSide s t ∧ SameMemory s t)

/-- R189: `RTR_READ_ROUTE e` returns the entry, or `INVALID_ARGUMENT` for e >= 8. Nothing else changes. -/
def Obligations.RtrReadRouteReturnsTheEntry : Prop :=
  ∀ (e : Byte) (s : State), decode (assemble 0x24 e 0 0) = .ok (.rtrReadRoute e) ∧
    (∀ d : Fin 8, e.toNat = d →
      ∃ t, exec (.rtrReadRoute e) s = .next t ∧ FinishedOnly s t .ok (zext32 s.route[d]) 0 0) ∧
    (8 ≤ e.toNat → ∃ t, exec (.rtrReadRoute e) s = .next t ∧ FinishedOnly s t .invalidArgument 0 0 0)

/-- R190: `RTR_READ_CFG` returns `device_addr` and `num_ports`; right after reset, 0 and 0. Nothing else changes. -/
def Obligations.RtrReadCfgReturnsTheConfiguration : Prop :=
  decode 0x00000025 = .ok .rtrReadCfg ∧
  (∀ s : State, ∃ t, exec .rtrReadCfg s = .next t ∧
    FinishedOnly s t .ok (zext32 s.deviceAddr) (zext32 s.numPorts) 0) ∧
  ∃ t, exec .rtrReadCfg State.reset = .next t ∧ t.res0 = 0 ∧ t.res1 = 0

/-- R191: `VC_READ c` returns the id (equal to c), the active flag and the credits, or `INVALID_ARGUMENT` for c >= 16; after
`RTR_INIT` every channel reads (c, 0, 64). Nothing else changes. -/
def Obligations.VcReadReturnsTheChannel : Prop :=
  (∀ (c : Byte) (s : State), decode (assemble 0x26 c 0 0) = .ok (.vcRead c) ∧
    (∀ k : Fin 16, c.toNat = k →
      ∃ t, exec (.vcRead c) s = .next t ∧
        FinishedOnly s t .ok (zext32 c) (if (s.vc[k]).active then 1 else 0) (zext32 (s.vc[k]).credits)) ∧
    (16 ≤ c.toNat → ∃ t, exec (.vcRead c) s = .next t ∧ FinishedOnly s t .invalidArgument 0 0 0)) ∧
  ∀ (c a n : Byte) (s t : State), c.toNat < 16 → exec (.rtrInit a n) s = .next t →
    ∃ u, exec (.vcRead c) t = .next u ∧ Finished u .ok (zext32 c) 0 64

/-- Boot order: after `RTR_INIT`, a Connected port and a route to it, `RTR_ROUTE` of that destination gives the port and
counts one packet, from any state. Derived from R188, R283. -/
def Obligations.BootOrderMakesARouteWork : Prop :=
  ∀ (a n e o : Byte) (s s1 s2 s3 : State), e ≠ a → e.toNat < 8 → o.toNat < min n.toNat 8 →
    exec (.rtrInit a n) s = .next s1 → exec (.linkSetState o 3) s1 = .next s2 → exec (.rtrAddRoute e o) s2 = .next s3 →
    ∃ t, exec (.rtrRoute e) s3 = .next t ∧ Finished t .ok (zext32 o) 0 0 ∧
      ∀ p : Fin 8, o.toNat = p → (t.link[p]).txPackets = 1 ∧ (t.link[p]).state = .connected

/-! ### Link-state register file (44_link_state.md) -/

/-- R221: `LINK_INIT q, k` binds the configuration, resets the state and the credits of that entry, and keeps its id and
counters; a port of 8 or more, or more than 16 bits of credits, gives `INVALID_ARGUMENT` and writes nothing. -/
def Obligations.LinkInitBindsTheConfiguration : Prop :=
  ∀ (q : Byte) (k : BitVec 1) (s : State), decode (assemble 0x30 q (k.setWidth 8) 0) = .ok (.linkInit q k) ∧
    (∀ p : Fin 8, q.toNat = p → s.arg2.toNat < 65536 →
      ∃ t, exec (.linkInit q k) s = .next t ∧ Finished t .ok 0 0 0 ∧
        t.link[p] = { s.link[p] with bitRate := s.arg0, disconnectTimeout := s.arg1, maxRxCredits := s.arg2.setWidth 16, crcEnable := k, state := .uninitialized, rxCredits := s.arg2.setWidth 16, txCredits := 0 } ∧
        (∀ p' : Fin 8, p' ≠ p → t.link[p'] = s.link[p']) ∧ t.deviceAddr = s.deviceAddr ∧ t.numPorts = s.numPorts ∧
        t.route = s.route ∧ t.vc = s.vc ∧ SameHostSide s t ∧ SameMemory s t) ∧
    (8 ≤ q.toNat ∨ 65536 ≤ s.arg2.toNat →
      ∃ t, exec (.linkInit q k) s = .next t ∧ FinishedOnly s t .invalidArgument 0 0 0)

/-- R223: `LINK_SET_STATE q, st` sets any of the five states from any other and changes no counter and no credit; a port of 8
or more, or a state of 5 to 7, gives `INVALID_ARGUMENT` and writes nothing. -/
def Obligations.LinkSetStateSetsAnyState : Prop :=
  ∀ (q : Byte) (st : BitVec 3) (s : State), decode (assemble 0x31 q (st.setWidth 8) 0) = .ok (.linkSetState q st) ∧
    (∀ (p : Fin 8) (v : LinkState), q.toNat = p → st = v.bits →
      ∃ t, exec (.linkSetState q st) s = .next t ∧ Finished t .ok 0 0 0 ∧
        t.link[p] = { s.link[p] with state := v } ∧ (∀ p' : Fin 8, p' ≠ p → t.link[p'] = s.link[p']) ∧
        t.deviceAddr = s.deviceAddr ∧ t.numPorts = s.numPorts ∧ t.route = s.route ∧ t.vc = s.vc ∧
        SameHostSide s t ∧ SameMemory s t) ∧
    (8 ≤ q.toNat ∨ 4 < st.toNat →
      ∃ t, exec (.linkSetState q st) s = .next t ∧ FinishedOnly s t .invalidArgument 0 0 0)

/-- R224: `LINK_READ q, l` returns the field of the selector, zero-extended; a port of 8 or more, or a selector of 11 or
more, gives `INVALID_ARGUMENT`. Nothing else changes. -/
def Obligations.LinkReadReturnsTheField : Prop :=
  ∀ (q l : Byte) (s : State), decode (assemble 0x32 q l 0) = .ok (.linkRead q l) ∧
    (∀ (p : Fin 8) (v : Word), q.toNat = p →
      (l = 0 ∧ v = zext32 (s.link[p]).state.bits) ∨ (l = 1 ∧ v = (s.link[p]).txPackets) ∨
        (l = 2 ∧ v = (s.link[p]).rxPackets) ∨ (l = 3 ∧ v = (s.link[p]).errors) ∨
        (l = 4 ∧ v = zext32 (s.link[p]).rxCredits) ∨ (l = 5 ∧ v = zext32 (s.link[p]).txCredits) ∨
        (l = 6 ∧ v = (s.link[p]).bitRate) ∨ (l = 7 ∧ v = (s.link[p]).disconnectTimeout) ∨
        (l = 8 ∧ v = zext32 (s.link[p]).maxRxCredits) ∨ (l = 9 ∧ v = zext32 (s.link[p]).crcEnable) ∨
        (l = 10 ∧ v = zext32 (s.link[p]).portId) →
      ∃ t, exec (.linkRead q l) s = .next t ∧ FinishedOnly s t .ok v 0 0) ∧
    (8 ≤ q.toNat ∨ 11 ≤ l.toNat → ∃ t, exec (.linkRead q l) s = .next t ∧ FinishedOnly s t .invalidArgument 0 0 0)

/-! ### Reset (70_reset_and_hazards.md) -/

/-- Reset between commands sets every register and all internal state to the values of 10_state.md and writes no buffer
memory. Derived from R280; that the host's side stays is log 19. -/
def Obligations.ResetSetsEveryRegister : Prop :=
  ∀ (s : State) (rest : List HostAction), s.host = .reset :: rest →
    ∃ t, step s = .next t ∧ HoldsResetValues t ∧ t.mem = s.mem ∧ t.cfg = s.cfg ∧ t.host = rest

/-- The internal state after reset is the one that `RTR_INIT 0x00, 0` and `LINK_INIT p, 0` with zero operands for every port
leave, from any state. Derived: that sentence of R280 is marked derived. -/
def Obligations.InitCommandsReachTheResetState : Prop :=
  ∀ (s s0 s1 s2 s3 s4 s5 s6 s7 t : State), s.arg0 = 0 → s.arg1 = 0 → s.arg2 = 0 →
    exec (.rtrInit 0 0) s = .next s0 → exec (.linkInit 0 0) s0 = .next s1 → exec (.linkInit 1 0) s1 = .next s2 →
    exec (.linkInit 2 0) s2 = .next s3 → exec (.linkInit 3 0) s3 = .next s4 → exec (.linkInit 4 0) s4 = .next s5 →
    exec (.linkInit 5 0) s5 = .next s6 → exec (.linkInit 6 0) s6 = .next s7 → exec (.linkInit 7 0) s7 = .next t →
    SameInternal State.reset t

/-- Reset while a command runs abandons it: every register and all internal state hold their reset values, `finish` is never
seen, and only the bytes of the write footprint of a `FRAME_ENC` may have changed (to any value: nothing is said of them).
Every other command leaves all memory as it was, and so does a `FRAME_ENC` that would report a failed check or is stuck: its
write footprint is empty. Derived from R281, R64 and R65. The model's choices: the parameters and the host's pending actions
stay (log 19); reset ends a stuck command, and the premise leaves out a command the spec refuses (log 12, log 22). -/
def Obligations.ResetAbandonsTheRunningCommand : Prop :=
  ∀ (s : State) (w : Word) (rest : List HostAction), s.mem.wf = true → s.host = .resetDuring w :: rest →
    (∀ r, startCommand w (s.setHost rest) ≠ .refused r) →
    ∃ t, step s = .next t ∧ HoldsResetValues t ∧ t.cfg = s.cfg ∧ t.host = rest ∧
      ((∀ d p, decode w ≠ .ok (.frameEnc d p)) → t.mem = s.mem) ∧
      (∀ u, startCommand w (s.setHost rest) = .next u → u.status ≠ Code.ok.toByte → t.mem = s.mem) ∧
      (∀ f, startCommand w (s.setHost rest) = .fault f → t.mem = s.mem) ∧
      ∀ d p, decode w = .ok (.frameEnc d p) →
        SameMemoryOutside s t s.arg2.toNat ((s.arg1.setWidth 16).toNat + 4)

/-! ### The invariant -/

/-- The invariant holds right after reset. Derived from R25, R31, R32, R33, R40, R280. -/
def Obligations.ResetSatisfiesTheInvariant : Prop := State.reset.Inv

/-- Every step keeps the invariant, from every state that has it: canonical memory, `num_ports` at most 8 (R31), every route
empty or below `num_ports` (R32), a code some command writes in `STATUS` (R250, R255), `port_id` the index, no receive and
no error count (R44), credits only as initialised (R33, R45). Derived. -/
def Obligations.StepKeepsTheInvariant : Prop :=
  ∀ s t : State, s.Inv → step s = .next t → t.Inv

/-- No step changes the parameters. Derived from R7 (log 2). -/
def Obligations.StepKeepsTheParameters : Prop :=
  ∀ s t : State, step s = .next t → t.cfg = s.cfg

/-! ### The host's critical section (70_reset_and_hazards.md R286) -/

/-- The record of the host's critical section: its operand writes are noted, its byte writes after one of them too, its
`CMD` write ends the part before the command and starts the part after it, with what the command read if the host had written
an operand that it names; nothing else changes it but reset. Derived from R75, R286, log 22; log 5 and log 21 for the
window. -/
def Obligations.CriticalSectionIsRecorded : Prop :=
  ∀ (s t : State) (rest : List HostAction), step s = .next t →
    (∀ (off : BitVec 6) (k : Fin 4) (v : Word),
      (off = 0x08 ∧ k = 0) ∨ (off = 0x0C ∧ k = 1) ∨ (off = 0x10 ∧ k = 2) ∨ (off = 0x14 ∧ k = 3) →
      s.host = .regWrite (s.cfg.base + off.setWidth 32) .word v :: rest →
      (∀ j, j ∈ t.hostSection.operands ↔ j = k ∨ j ∈ s.hostSection.operands) ∧
      t.hostSection.written = s.hostSection.written ∧ t.hostSection.reads = s.hostSection.reads ∧
      t.hostSection.overwritten = s.hostSection.overwritten) ∧
    (∀ (a : Word) (v : Byte), s.host = .memWrite a v :: rest →
      t.hostSection.operands = s.hostSection.operands ∧
      (s.hostSection.operands ≠ [] →
        t.hostSection.written = (a.toNat, s.hostSection.operands) :: s.hostSection.written) ∧
      (s.hostSection.operands = [] → t.hostSection.written = s.hostSection.written) ∧
      t.hostSection.reads = s.hostSection.reads ∧
      (t.hostSection.overwritten = true ↔ s.hostSection.overwritten = true ∨
        ∃ r ∈ s.hostSection.reads, r.1 ≤ a.toNat ∧ a.toNat < r.1 + r.2)) ∧
    (∀ w : Word, s.host = cmdWrite s.cfg w :: rest →
      t.hostSection.operands = [] ∧ t.hostSection.written = [] ∧ t.hostSection.overwritten = false ∧
      (0 ∈ s.hostSection.operands ∨ 1 ∈ s.hostSection.operands →
        (decode w = .ok .crc16 → s.arg0 ≠ 0 → t.hostSection.reads = [(s.arg0.toNat, s.arg1.toNat)]) ∧
        (decode w = .ok .frameDec → t.status = Code.ok.toByte ∨ t.status = Code.checksumMismatch.toByte →
          t.hostSection.reads = [(s.arg0.toNat, s.arg1.toNat)])) ∧
      (s.hostSection.operands ≠ [] → ∀ d p, decode w = .ok (.frameEnc d p) → t.status = Code.ok.toByte →
        t.hostSection.reads = [(s.arg0.toNat, s.arg1.toNat)]) ∧
      ((decode w = .ok .crc16 ∧ s.arg0 = 0) ∨
          (decode w = .ok .frameDec ∧ t.status ≠ Code.ok.toByte ∧ t.status ≠ Code.checksumMismatch.toByte) ∨
          (∃ d p, decode w = .ok (.frameEnc d p) ∧ t.status ≠ Code.ok.toByte) ∨
          (decode w ≠ .ok .crc16 ∧ decode w ≠ .ok .frameDec ∧ ∀ d p, decode w ≠ .ok (.frameEnc d p)) ∨
          (0 ∉ s.hostSection.operands ∧ 1 ∉ s.hostSection.operands ∧ ∀ d p, decode w ≠ .ok (.frameEnc d p)) ∨
          s.hostSection.operands = [] →
        t.hostSection.reads = [])) ∧
    (∀ (off : BitVec 6) (v : Word), off = 0x04 ∨ (off.extractLsb' 0 2 = 0 ∧ 0x18 ≤ off.toNat) →
      s.host = .regWrite (s.cfg.base + off.setWidth 32) .word v :: rest → t.hostSection = s.hostSection) ∧
    ((∃ addr size, s.host = .regRead addr size :: rest) ∨ (∃ a, s.host = .memRead a :: rest) ∨ s.host = [] →
      t.hostSection = s.hostSection) ∧
    (s.host = .reset :: rest ∨ (∃ w, s.host = .resetDuring w :: rest) → t.hostSection = .closed)

/-- The host's own write, inside its critical section, of a buffer the command reads is refused: a write between the first
write of an operand the command names and `CMD` when the command is started, a write after the command when a result is read.
No other write of the host makes a command stop. Derived from R286 ("Nor may any agent write the buffers the command reads"
and "An interleaving that breaks this rule is refused"), R20, D36, log 22; log 5 and log 21 for the window. -/
def Obligations.HostWriteOfAReadBufferIsRefused : Prop :=
  ∀ (s : State) (rest : List HostAction),
    (∀ (x : Nat) (ks : List (Fin 4)), (x, ks) ∈ s.hostSection.written → s.arg0.toNat ≤ x →
      x < s.arg0.toNat + s.arg1.toNat → s.arg0 ≠ 0 → s.accessible s.arg0.toNat s.arg1.toNat = true →
      (0 ∈ ks ∨ 1 ∈ ks →
        (s.host = cmdWrite s.cfg 0x00000003 :: rest → step s = .refused .criticalSection) ∧
        (s.host = cmdWrite s.cfg 0x00000012 :: rest → 4 ≤ s.arg1.toNat → s.arg1.toNat ≤ 65539 →
          step s = .refused .criticalSection)) ∧
      (ks ≠ [] → ∀ d p : Byte, s.host = cmdWrite s.cfg (assemble 0x11 d p 0) :: rest → s.arg2 ≠ 0 →
        s.arg1.toNat < 65536 → s.arg1.toNat + 4 ≤ s.arg3.toNat →
        overlaps s.arg0.toNat s.arg1.toNat s.arg2.toNat (s.arg1.toNat + 4) = false →
        s.accessible s.arg2.toNat (s.arg1.toNat + 4) = true → step s = .refused .criticalSection)) ∧
    (∀ off : BitVec 6, s.hostSection.overwritten = true → off = 0x04 ∨ off = 0x18 ∨ off = 0x1C ∨ off = 0x20 →
      s.host = .regRead (s.cfg.base + off.setWidth 32) .word :: rest → step s = .refused .criticalSection) ∧
    ∀ w : Word, s.host = cmdWrite s.cfg w :: rest → step s = .refused .criticalSection →
      (∃ i, decode w = .ok i ∧ (i = .crc16 ∨ i = .frameDec ∨ ∃ d p, i = .frameEnc d p) ∧
        ∃ x ks k, (x, ks) ∈ s.hostSection.written ∧ k ∈ ks ∧ k ∈ argsRead i ∧ s.arg0.toNat ≤ x ∧
          x < s.arg0.toNat + s.arg1.toNat)
end

