-- ==== Sys2Proof/Laws/Memory.lean ====
section
/-! SUPPORT. The laws of the buffer memory: a read after a write, and the canonical form that every operation keeps. -/

namespace Sys2Proof.Machine

/-! ### Reading after writing one byte (R66) -/

theorem Memory.read_cons (a : Nat) (v : Byte) (rest : Memory) (h : ∀ k b, (k, b) ∈ rest → a < k) (x : Nat) :
    (Memory.cons a v rest).read x = if x = a then v else Memory.read rest x := by
  have absent : ∀ r : Memory, (∀ k b, (k, b) ∈ r → a < k) → Memory.read r a = unwrittenByte := by
    intro r hr
    induction r with
    | nil => rfl
    | cons c r ih =>
      obtain ⟨k, b⟩ := c
      have hk := hr k b (by simp)
      simp only [Memory.read, if_neg (by omega : k ≠ a)]
      exact ih fun k b hm => hr k b (by simp [hm])
  unfold Memory.cons
  split
  · split
    · subst_vars; exact absent rest h
    · rfl
  · simp only [Memory.read, eq_comm]

theorem Memory.keys_above {lo : Nat} {m : Memory} (h : m.wfFrom lo = true) : ∀ k b, (k, b) ∈ m → lo ≤ k := by
  induction m generalizing lo with
  | nil => simp
  | cons c m ih =>
    obtain ⟨k, b⟩ := c
    simp only [Memory.wfFrom, Bool.and_eq_true, decide_eq_true_eq] at h
    intro k' b' hm
    rcases List.mem_cons.1 hm with hm | hm
    · cases hm; exact h.1.1.1
    · have := ih h.2 k' b' hm
      omega

theorem Memory.read_write_from {lo : Nat} {m : Memory} (h : m.wfFrom lo = true) (a : Nat) (v : Byte) (x : Nat) :
    (m.write a v).read x = if x = a then v else m.read x := by
  induction m generalizing lo with
  | nil => exact Memory.read_cons a v [] (by simp) x
  | cons c m ih =>
    obtain ⟨k, b⟩ := c
    have above := Memory.keys_above h
    simp only [Memory.wfFrom, Bool.and_eq_true] at h
    have rest := Memory.keys_above h.2
    simp only [Memory.write]
    split
    · rename_i hak
      apply Memory.read_cons
      intro k' b' hm
      rcases List.mem_cons.1 hm with hm | hm
      · cases hm; exact hak
      · have := rest k' b' hm; omega
    · split
      · rename_i hak
        subst hak
        rw [Memory.read_cons a v m (fun k' b' hm => by have := rest k' b' hm; omega)]
        simp only [Memory.read]
        by_cases hx : x = a
        · simp [hx]
        · simp [hx, Ne.symm hx]
      · simp only [Memory.read, ih h.2]
        by_cases hx : k = x
        · simp only [hx, if_true]
          rw [if_neg (by omega)]
        · simp [hx]

/-- A read after a write: the byte written there, and every other byte as it was. -/
theorem Memory.read_write {m : Memory} (h : m.wf = true) (a : Nat) (v : Byte) (x : Nat) :
    (m.write a v).read x = if x = a then v else m.read x :=
  Memory.read_write_from h a v x

/-! ### The canonical form -/

theorem Memory.wfFrom_mono {lo lo' : Nat} {m : Memory} (hl : lo' ≤ lo) (h : m.wfFrom lo = true) :
    m.wfFrom lo' = true := by
  cases m with
  | nil => rfl
  | cons c m =>
    obtain ⟨k, b⟩ := c
    simp only [Memory.wfFrom, Bool.and_eq_true, decide_eq_true_eq] at h ⊢
    exact ⟨⟨⟨by omega, h.1.1.2⟩, h.1.2⟩, h.2⟩

theorem Memory.wfFrom_cons {lo a : Nat} {v : Byte} {m : Memory} (hl : lo ≤ a) (ha : a < addrTop)
    (h : m.wfFrom (a + 1) = true) : (Memory.cons a v m).wfFrom lo = true := by
  unfold Memory.cons
  split
  · exact Memory.wfFrom_mono (by omega) h
  · rename_i hv
    simp [Memory.wfFrom, hl, ha, h, hv]

theorem Memory.wfFrom_write {lo a : Nat} {v : Byte} {m : Memory} (hl : lo ≤ a) (ha : a < addrTop)
    (h : m.wfFrom lo = true) : (m.write a v).wfFrom lo = true := by
  induction m generalizing lo with
  | nil => exact Memory.wfFrom_cons hl ha rfl
  | cons c m ih =>
    obtain ⟨k, b⟩ := c
    simp only [Memory.wfFrom, Bool.and_eq_true, decide_eq_true_eq] at h
    simp only [Memory.write]
    split
    · apply Memory.wfFrom_cons hl ha
      simp only [Memory.wfFrom, Bool.and_eq_true, decide_eq_true_eq]
      exact ⟨⟨⟨by omega, h.1.1.2⟩, h.1.2⟩, h.2⟩
    · split
      · subst_vars
        exact Memory.wfFrom_cons hl ha h.2
      · simp only [Memory.wfFrom, Bool.and_eq_true, decide_eq_true_eq]
        exact ⟨⟨⟨h.1.1.1, h.1.1.2⟩, h.1.2⟩, ih (by omega) h.2⟩

/-- A write inside the 32-bit space keeps the canonical form. -/
theorem Memory.wf_write {m : Memory} {a : Nat} {v : Byte} (h : m.wf = true) (ha : a < addrTop) :
    (m.write a v).wf = true :=
  Memory.wfFrom_write (Nat.zero_le a) ha h

theorem Memory.wf_copyBytes {m : Memory} {src dst n : Nat} (h : m.wf = true) (hd : dst + n ≤ addrTop) :
    (m.copyBytes src dst n).wf = true := by
  induction n generalizing m src dst with
  | zero => exact h
  | succ n ih => exact ih (Memory.wf_write h (by omega)) (by omega)

theorem Memory.wf_smear {m : Memory} {draw a n : Nat} (h : m.wf = true) (ha : a + n ≤ addrTop) :
    (m.smear draw a n).wf = true := by
  induction n generalizing m draw a with
  | zero => exact h
  | succ n ih => exact ih (Memory.wf_write h (by omega)) (by omega)

/-- The writes of a frame keep the canonical form. -/
theorem wf_frameWrites {init : Half} {t i : Byte} {pa ba n : Nat} {m : Memory} (h : m.wf = true)
    (hb : ba + frameSize n ≤ addrTop) : (frameWrites init t i pa ba n m).wf = true := by
  simp only [frameSize, frameOverhead] at hb
  exact Memory.wf_write (Memory.wf_write (Memory.wf_copyBytes (Memory.wf_write (Memory.wf_write h (by omega))
    (by omega)) (by omega)) (by omega)) (by omega)

/-- Two canonical memories that read the same everywhere are the same list. -/
theorem Memory.ext_of_read_from {lo : Nat} {m m' : Memory} (h : m.wfFrom lo = true) (h' : m'.wfFrom lo = true)
    (heq : ∀ x, m.read x = m'.read x) : m = m' := by
  induction m generalizing lo m' with
  | nil =>
    cases m' with
    | nil => rfl
    | cons c m' =>
      obtain ⟨k, b⟩ := c
      have := heq k
      simp only [Memory.wfFrom, Bool.and_eq_true, bne_iff_ne] at h'
      simp [Memory.read] at this
      exact absurd this.symm h'.1.2
  | cons c m ih =>
    obtain ⟨k, b⟩ := c
    have ab := Memory.keys_above h
    have hw := h
    simp only [Memory.wfFrom, Bool.and_eq_true, bne_iff_ne, decide_eq_true_eq] at hw
    have none_below : ∀ {l : Nat} {r : Memory}, r.wfFrom l = true → ∀ x, x < l → r.read x = unwrittenByte := by
      intro l r hr x hx
      induction r generalizing l with
      | nil => rfl
      | cons d r ihr =>
        obtain ⟨j, c⟩ := d
        have := Memory.keys_above hr j c (by simp)
        simp only [Memory.wfFrom, Bool.and_eq_true] at hr
        simp only [Memory.read, if_neg (by omega : j ≠ x)]
        exact ihr hr.2 (by omega)
    cases m' with
    | nil =>
      have := heq k
      simp [Memory.read] at this
      exact absurd this hw.1.2
    | cons c' m' =>
      obtain ⟨k', b'⟩ := c'
      have hw' := h'
      simp only [Memory.wfFrom, Bool.and_eq_true, bne_iff_ne, decide_eq_true_eq] at hw'
      have hk : k = k' := by
        rcases Nat.lt_trichotomy k k' with hlt | he | hgt
        · have e := heq k
          simp only [Memory.read, if_true, if_neg (by omega : k' ≠ k)] at e
          rw [none_below hw'.2 k (by omega)] at e
          exact absurd e hw.1.2
        · exact he
        · have e := heq k'
          simp only [Memory.read, if_true, if_neg (by omega : k ≠ k')] at e
          rw [none_below hw.2 k' (by omega)] at e
          exact absurd e.symm hw'.1.2
      subst hk
      have hb : b = b' := by simpa [Memory.read] using heq k
      subst hb
      congr 1
      apply ih hw.2 hw'.2
      intro x
      by_cases hx : k = x
      · subst hx
        rw [none_below hw.2 k (by omega), none_below hw'.2 k (by omega)]
      · simpa [Memory.read, hx] using heq x

/-- Equal memories are equal data. -/
theorem Memory.ext_of_read {m m' : Memory} (h : m.wf = true) (h' : m'.wf = true)
    (heq : ∀ x, m.read x = m'.read x) : m = m' :=
  Memory.ext_of_read_from h h' heq

/-! ### Ranges of bytes -/

theorem Memory.length_readBytes (m : Memory) (a n : Nat) : (m.readBytes a n).length = n := by
  induction n generalizing a with
  | zero => rfl
  | succ n ih => simp [Memory.readBytes, ih]

theorem Memory.readBytes_add (m : Memory) (a n k : Nat) :
    m.readBytes a (n + k) = m.readBytes a n ++ m.readBytes (a + n) k := by
  induction n generalizing a with
  | zero => simp [Memory.readBytes]
  | succ n ih =>
    rw [show n + 1 + k = (n + k) + 1 by omega]
    simp [Memory.readBytes, ih, show a + 1 + n = a + (n + 1) by omega]

/-- Memories that agree on a range read the same bytes there. -/
theorem Memory.readBytes_congr {m m' : Memory} {a n : Nat} (h : ∀ x, a ≤ x → x < a + n → m.read x = m'.read x) :
    m.readBytes a n = m'.readBytes a n := by
  induction n generalizing a with
  | zero => rfl
  | succ n ih =>
    simp only [Memory.readBytes]
    rw [h a (by omega) (by omega), ih fun x h1 h2 => h x (by omega) (by omega)]

/-- A copy reads as before outside its destination. -/
theorem Memory.read_copyBytes_outside {m : Memory} {src dst n x : Nat} (h : m.wf = true) (hd : dst + n ≤ addrTop)
    (hx : x < dst ∨ dst + n ≤ x) : (m.copyBytes src dst n).read x = m.read x := by
  induction n generalizing m src dst with
  | zero => rfl
  | succ n ih =>
    rw [Memory.copyBytes, ih (Memory.wf_write h (by omega)) (by omega) (by omega), Memory.read_write h,
      if_neg (by omega)]

/-- A copy between ranges that share no address puts the source's bytes at the destination. -/
theorem Memory.readBytes_copyBytes {m : Memory} {src dst n : Nat} (h : m.wf = true) (hd : dst + n ≤ addrTop)
    (hdis : src + n ≤ dst ∨ dst + n ≤ src) :
    (m.copyBytes src dst n).readBytes dst n = m.readBytes src n := by
  induction n generalizing m src dst with
  | zero => rfl
  | succ n ih =>
    have hw : (m.write dst (m.read src)).wf = true := Memory.wf_write h (by omega)
    simp only [Memory.readBytes, Memory.copyBytes]
    congr 1
    · rw [Memory.read_copyBytes_outside hw (by omega) (by omega), Memory.read_write h, if_pos rfl]
    · rw [ih hw (by omega) (by omega)]
      exact Memory.readBytes_congr fun x h1 h2 => by rw [Memory.read_write h, if_neg (by omega)]

/-- The smeared bytes aside, memory reads as before. -/
theorem Memory.read_smear_outside {m : Memory} {draw a n x : Nat} (h : m.wf = true) (ha : a + n ≤ addrTop)
    (hx : x < a ∨ a + n ≤ x) : (m.smear draw a n).read x = m.read x := by
  induction n generalizing m draw a with
  | zero => rfl
  | succ n ih =>
    rw [Memory.smear, ih (Memory.wf_write h (by omega)) (by omega) (by omega), Memory.read_write h,
      if_neg (by omega)]

end Sys2Proof.Machine
end

