-- ==== Sys2Proof/Laws/Crc.lean ====
section
/-! SUPPORT. The CRC is linear, and every step of it loses nothing: what the claims about tables, residues and changed bytes
rest on (41_crc.md R131). -/

namespace Sys2Proof.Machine

/-- One shift is linear. -/
theorem crcShift_xor (x y : Half) : crcShift (x ^^^ y) = crcShift x ^^^ crcShift y := by
  unfold crcShift
  rw [BitVec.msb_xor]
  cases x.msb <;> cases y.msb <;>
    simp only [Bool.false_bne, Bool.true_bne, Bool.not_false, if_true, Bool.false_eq_true, if_false,
      BitVec.shiftLeft_xor_distrib, bne_self_eq_false]
  · ac_rfl
  · ac_rfl
  · rw [show x <<< 1 ^^^ crcPoly ^^^ (y <<< 1 ^^^ crcPoly) = x <<< 1 ^^^ y <<< 1 ^^^ (crcPoly ^^^ crcPoly) by ac_rfl]
    simp

/-- The eight shifts of one byte. -/
def crcShift8 (x : Half) : Half :=
  crcShift (crcShift (crcShift (crcShift (crcShift (crcShift (crcShift (crcShift x)))))))

theorem crcByte_eq (c : Half) (b : Byte) : crcByte c b = crcShift8 (c ^^^ (b.setWidth 16 <<< 8)) := rfl

theorem crcShift8_xor (x y : Half) : crcShift8 (x ^^^ y) = crcShift8 x ^^^ crcShift8 y := by
  simp only [crcShift8, crcShift_xor]

/-- A low byte is only moved up: its bits never reach bit 15 before the last shift. -/
theorem crcShift8_low : ∀ b : Byte, crcShift8 (b.setWidth 16) = b.setWidth 16 <<< 8 := by decide

/-- Only 0 shifts to 0: the polynomial is odd. -/
theorem crcShift_eq_zero (x : Half) (h : crcShift x = 0) : x = 0 := by
  unfold crcShift at h
  split at h
  · have := congrArg (fun z : Half => z.getLsbD 0) h
    simp [crcPoly] at this
  · rename_i hm
    apply BitVec.eq_of_getLsbD_eq
    intro i hi
    by_cases h15 : i = 15
    · subst h15
      simp only [BitVec.msb_eq_getLsbD_last, Bool.not_eq_true] at hm
      simpa using hm
    · have := congrArg (fun z : Half => z.getLsbD (i + 1)) h
      simp only [BitVec.getLsbD_shiftLeft, show i + 1 < 16 by omega] at this
      simpa [BitVec.getLsbD_eq_getElem hi] using this

theorem crcShift8_injective {x y : Half} (h : crcShift8 x = crcShift8 y) : x = y := by
  have hz : crcShift8 (x ^^^ y) = 0 := by rw [crcShift8_xor, h]; simp
  unfold crcShift8 at hz
  exact BitVec.xor_eq_zero_iff.1 (crcShift_eq_zero _ (crcShift_eq_zero _ (crcShift_eq_zero _ (crcShift_eq_zero _
    (crcShift_eq_zero _ (crcShift_eq_zero _ (crcShift_eq_zero _ (crcShift_eq_zero _ hz))))))))

/-- The same bytes keep different CRCs different. -/
theorem foldl_crcByte_injective (bytes : List Byte) {c c' : Half}
    (h : bytes.foldl crcByte c = bytes.foldl crcByte c') : c = c' := by
  induction bytes generalizing c c' with
  | nil => exact h
  | cons b bytes ih => exact (BitVec.xor_left_inj _).1 (crcShift8_injective (ih h))

/-- A byte keeps its value in the CRC: different bytes give different ones. -/
theorem crcByte_injective {c : Half} {b b' : Byte} (h : crcByte c b = crcByte c b') : b = b' := by
  have e := (BitVec.xor_right_inj _).1 (crcShift8_injective h)
  apply BitVec.eq_of_getLsbD_eq
  intro i hi
  have := congrArg (fun z : Half => z.getLsbD (i + 8)) e
  simpa [hi, show i + 8 < 16 by omega] using this

/-- The preset goes through, and the next bytes go on from there (`CRC_XOROUT` is 0). -/
theorem crc16_append (init : Half) (xs ys : List Byte) : crc16 init (xs ++ ys) = crc16 (crc16 init xs) ys := by
  simp [crc16, crcXorOut]

end Sys2Proof.Machine
end

