-- ==== Sys2Proof/Laws/Encoding.lean ====
section
/-! SUPPORT. The fields of an assembled command word, and a word from its fields (30_encoding.md R81): cited by every proof
about encodings, so that none works on 32 bits again. -/

namespace Sys2Proof

/-- A bit of an assembled word, from the field it lies in. -/
theorem getLsbD_assemble (opc f1 f2 f3 : Byte) (j : Nat) :
    (assemble opc f1 f2 f3).getLsbD j =
      if j < 8 then opc.getLsbD j else if j < 16 then f1.getLsbD (j - 8)
      else if j < 24 then f2.getLsbD (j - 16) else f3.getLsbD (j - 24) := by
  show ((f3 ++ f2 ++ f1 ++ opc : BitVec (8 + 8 + 8 + 8))).getLsbD j = _
  simp only [BitVec.getLsbD_append, Nat.sub_sub]
  grind

section assemble
variable (opc f1 f2 f3 : Byte)

@[simp] theorem fieldOpc_assemble : fieldOpc (assemble opc f1 f2 f3) = opc := by
  apply BitVec.eq_of_getLsbD_eq
  intro i hi
  simp [fieldOpc, getLsbD_assemble, hi]

@[simp] theorem fieldF1_assemble : fieldF1 (assemble opc f1 f2 f3) = f1 := by
  apply BitVec.eq_of_getLsbD_eq
  intro i hi
  have : 8 + i < 16 := by omega
  simp [fieldF1, getLsbD_assemble, hi, this]

@[simp] theorem fieldF2_assemble : fieldF2 (assemble opc f1 f2 f3) = f2 := by
  apply BitVec.eq_of_getLsbD_eq
  intro i hi
  have h1 : ¬16 + i < 8 := by omega
  have h2 : 16 + i < 24 := by omega
  simp [fieldF2, getLsbD_assemble, hi, h1, h2]

@[simp] theorem fieldF3_assemble : fieldF3 (assemble opc f1 f2 f3) = f3 := by
  apply BitVec.eq_of_getLsbD_eq
  intro i hi
  have h1 : ¬24 + i < 8 := by omega
  have h2 : ¬24 + i < 16 := by omega
  simp [fieldF3, getLsbD_assemble, hi, h1, h2]

end assemble

/-- A word is its four fields. -/
theorem assemble_fields (w : Word) : assemble (fieldOpc w) (fieldF1 w) (fieldF2 w) (fieldF3 w) = w := by
  apply BitVec.eq_of_getLsbD_eq
  intro j hj
  rw [getLsbD_assemble]
  simp only [fieldOpc, fieldF1, fieldF2, fieldF3, BitVec.getLsbD_extractLsb']
  split
  · simp [*]
  · split
    · rw [show 8 + (j - 8) = j by omega]
      simp; omega
    · split
      · rw [show 16 + (j - 16) = j by omega]
        simp; omega
      · rw [show 24 + (j - 24) = j by omega]
        simp; omega

/-- Masking an assembled word masks its fields. -/
theorem assemble_and (a b c d a' b' c' d' : Byte) :
    assemble a b c d &&& assemble a' b' c' d' = assemble (a &&& a') (b &&& b') (c &&& c') (d &&& d') := by
  apply BitVec.eq_of_getLsbD_eq
  intro j _
  simp only [BitVec.getLsbD_and, getLsbD_assemble]
  split
  · rfl
  · split
    · rfl
    · split <;> rfl

/-- Two assembled words are the same exactly when their fields are. -/
theorem assemble_inj {a b c d a' b' c' d' : Byte} :
    assemble a b c d = assemble a' b' c' d' ↔ a = a' ∧ b = b' ∧ c = c' ∧ d = d' := by
  constructor
  · intro h
    refine ⟨?_, ?_, ?_, ?_⟩
    · simpa using congrArg fieldOpc h
    · simpa using congrArg fieldF1 h
    · simpa using congrArg fieldF2 h
    · simpa using congrArg fieldF3 h
  · rintro ⟨rfl, rfl, rfl, rfl⟩; rfl

/-- A row of the opcode map, on the fields of the word (R82): each field under its part of the mask. -/
theorem accepts_assemble (mn : String) (m k : Word) (a b c d : Byte) :
    (⟨mn, m, k⟩ : OpRow).accepts (assemble a b c d) = true ↔
      a &&& fieldOpc k = fieldOpc m ∧ b &&& fieldF1 k = fieldF1 m ∧ c &&& fieldF2 k = fieldF2 m ∧
        d &&& fieldF3 k = fieldF3 m := by
  simp only [OpRow.accepts, beq_iff_eq]
  rw [← assemble_fields k, ← assemble_fields m, assemble_and, assemble_inj]
  simp

/-! ### Opcodes (R83) -/

/-- An opcode's number is found back. -/
theorem opcodeOf_byte (o : Opcode) : opcodeOf o.byte = some o := by cases o <;> rfl

/-- A number that is found is the opcode's. -/
theorem byte_of_opcodeOf {b : Byte} {o : Opcode} (h : opcodeOf b = some o) : o.byte = b := by
  have := List.find?_some h
  simpa using this

/-- Which fields decode to which command. -/
theorem decodeFields_ok {opc f1 f2 f3 : Byte} {i : Instr} :
    decodeFields opc f1 f2 f3 = .ok i ↔
      ∃ o : Opcode, opc = o.byte ∧ mustBeZero f1 f2 f3 o = true ∧ i = operandsOf f1 f2 o := by
  unfold decodeFields
  constructor
  · intro h
    split at h
    · cases h
    · rename_i o ho
      split at h
      · cases h
        exact ⟨o, (byte_of_opcodeOf ho).symm, by assumption, rfl⟩
      · cases h
  · rintro ⟨o, rfl, hz, rfl⟩
    simp [opcodeOf_byte, hz]

end Sys2Proof
end

