-- ==== Sys2Proof/Laws/State.lean ====
section
/-! SUPPORT. One lemma per field per state update, true by `rfl`: what each named update leaves in each field. Later proofs
cite these and never unfold a record update. -/

namespace Sys2Proof.Machine

section finish
variable (s : State) (c : Code) (r0 r1 r2 : Word)

@[simp] theorem State.finish_cmd : (s.finish c r0 r1 r2).cmd = s.cmd := rfl
@[simp] theorem State.finish_status : (s.finish c r0 r1 r2).status = c.toByte := rfl
@[simp] theorem State.finish_arg0 : (s.finish c r0 r1 r2).arg0 = s.arg0 := rfl
@[simp] theorem State.finish_arg1 : (s.finish c r0 r1 r2).arg1 = s.arg1 := rfl
@[simp] theorem State.finish_arg2 : (s.finish c r0 r1 r2).arg2 = s.arg2 := rfl
@[simp] theorem State.finish_arg3 : (s.finish c r0 r1 r2).arg3 = s.arg3 := rfl
@[simp] theorem State.finish_res0 : (s.finish c r0 r1 r2).res0 = r0 := rfl
@[simp] theorem State.finish_res1 : (s.finish c r0 r1 r2).res1 = r1 := rfl
@[simp] theorem State.finish_res2 : (s.finish c r0 r1 r2).res2 = r2 := rfl
@[simp] theorem State.finish_deviceAddr : (s.finish c r0 r1 r2).deviceAddr = s.deviceAddr := rfl
@[simp] theorem State.finish_numPorts : (s.finish c r0 r1 r2).numPorts = s.numPorts := rfl
@[simp] theorem State.finish_route : (s.finish c r0 r1 r2).route = s.route := rfl
@[simp] theorem State.finish_vc : (s.finish c r0 r1 r2).vc = s.vc := rfl
@[simp] theorem State.finish_link : (s.finish c r0 r1 r2).link = s.link := rfl
@[simp] theorem State.finish_mem : (s.finish c r0 r1 r2).mem = s.mem := rfl
@[simp] theorem State.finish_cfg : (s.finish c r0 r1 r2).cfg = s.cfg := rfl
@[simp] theorem State.finish_host : (s.finish c r0 r1 r2).host = s.host := rfl
@[simp] theorem State.finish_hostReads : (s.finish c r0 r1 r2).hostReads = s.hostReads := rfl
@[simp] theorem State.finish_hostSection : (s.finish c r0 r1 r2).hostSection = s.hostSection := rfl
@[simp] theorem State.finish_draws : (s.finish c r0 r1 r2).draws = s.draws := rfl

end finish

section setMem
variable (s : State) (m : Memory)

@[simp] theorem State.setMem_cmd : (s.setMem m).cmd = s.cmd := rfl
@[simp] theorem State.setMem_status : (s.setMem m).status = s.status := rfl
@[simp] theorem State.setMem_arg0 : (s.setMem m).arg0 = s.arg0 := rfl
@[simp] theorem State.setMem_arg1 : (s.setMem m).arg1 = s.arg1 := rfl
@[simp] theorem State.setMem_arg2 : (s.setMem m).arg2 = s.arg2 := rfl
@[simp] theorem State.setMem_arg3 : (s.setMem m).arg3 = s.arg3 := rfl
@[simp] theorem State.setMem_res0 : (s.setMem m).res0 = s.res0 := rfl
@[simp] theorem State.setMem_res1 : (s.setMem m).res1 = s.res1 := rfl
@[simp] theorem State.setMem_res2 : (s.setMem m).res2 = s.res2 := rfl
@[simp] theorem State.setMem_deviceAddr : (s.setMem m).deviceAddr = s.deviceAddr := rfl
@[simp] theorem State.setMem_numPorts : (s.setMem m).numPorts = s.numPorts := rfl
@[simp] theorem State.setMem_route : (s.setMem m).route = s.route := rfl
@[simp] theorem State.setMem_vc : (s.setMem m).vc = s.vc := rfl
@[simp] theorem State.setMem_link : (s.setMem m).link = s.link := rfl
@[simp] theorem State.setMem_mem : (s.setMem m).mem = m := rfl
@[simp] theorem State.setMem_cfg : (s.setMem m).cfg = s.cfg := rfl
@[simp] theorem State.setMem_host : (s.setMem m).host = s.host := rfl
@[simp] theorem State.setMem_hostReads : (s.setMem m).hostReads = s.hostReads := rfl
@[simp] theorem State.setMem_hostSection : (s.setMem m).hostSection = s.hostSection := rfl
@[simp] theorem State.setMem_draws : (s.setMem m).draws = s.draws := rfl

end setMem

section setRoute
variable (s : State) (d : Fin 8) (o : Byte)

@[simp] theorem State.setRoute_cmd : (s.setRoute d o).cmd = s.cmd := rfl
@[simp] theorem State.setRoute_status : (s.setRoute d o).status = s.status := rfl
@[simp] theorem State.setRoute_arg0 : (s.setRoute d o).arg0 = s.arg0 := rfl
@[simp] theorem State.setRoute_arg1 : (s.setRoute d o).arg1 = s.arg1 := rfl
@[simp] theorem State.setRoute_arg2 : (s.setRoute d o).arg2 = s.arg2 := rfl
@[simp] theorem State.setRoute_arg3 : (s.setRoute d o).arg3 = s.arg3 := rfl
@[simp] theorem State.setRoute_res0 : (s.setRoute d o).res0 = s.res0 := rfl
@[simp] theorem State.setRoute_res1 : (s.setRoute d o).res1 = s.res1 := rfl
@[simp] theorem State.setRoute_res2 : (s.setRoute d o).res2 = s.res2 := rfl
@[simp] theorem State.setRoute_deviceAddr : (s.setRoute d o).deviceAddr = s.deviceAddr := rfl
@[simp] theorem State.setRoute_numPorts : (s.setRoute d o).numPorts = s.numPorts := rfl
@[simp] theorem State.setRoute_route : (s.setRoute d o).route = s.route.set d o := rfl
@[simp] theorem State.setRoute_vc : (s.setRoute d o).vc = s.vc := rfl
@[simp] theorem State.setRoute_link : (s.setRoute d o).link = s.link := rfl
@[simp] theorem State.setRoute_mem : (s.setRoute d o).mem = s.mem := rfl
@[simp] theorem State.setRoute_cfg : (s.setRoute d o).cfg = s.cfg := rfl
@[simp] theorem State.setRoute_host : (s.setRoute d o).host = s.host := rfl
@[simp] theorem State.setRoute_hostReads : (s.setRoute d o).hostReads = s.hostReads := rfl
@[simp] theorem State.setRoute_hostSection : (s.setRoute d o).hostSection = s.hostSection := rfl
@[simp] theorem State.setRoute_draws : (s.setRoute d o).draws = s.draws := rfl

end setRoute

section openChannel
variable (s : State) (c : Fin 16)

@[simp] theorem State.openChannel_cmd : (s.openChannel c).cmd = s.cmd := rfl
@[simp] theorem State.openChannel_status : (s.openChannel c).status = s.status := rfl
@[simp] theorem State.openChannel_arg0 : (s.openChannel c).arg0 = s.arg0 := rfl
@[simp] theorem State.openChannel_arg1 : (s.openChannel c).arg1 = s.arg1 := rfl
@[simp] theorem State.openChannel_arg2 : (s.openChannel c).arg2 = s.arg2 := rfl
@[simp] theorem State.openChannel_arg3 : (s.openChannel c).arg3 = s.arg3 := rfl
@[simp] theorem State.openChannel_res0 : (s.openChannel c).res0 = s.res0 := rfl
@[simp] theorem State.openChannel_res1 : (s.openChannel c).res1 = s.res1 := rfl
@[simp] theorem State.openChannel_res2 : (s.openChannel c).res2 = s.res2 := rfl
@[simp] theorem State.openChannel_deviceAddr : (s.openChannel c).deviceAddr = s.deviceAddr := rfl
@[simp] theorem State.openChannel_numPorts : (s.openChannel c).numPorts = s.numPorts := rfl
@[simp] theorem State.openChannel_route : (s.openChannel c).route = s.route := rfl
@[simp] theorem State.openChannel_vc : (s.openChannel c).vc = s.vc.set c { s.vc[c] with active := true } := rfl
@[simp] theorem State.openChannel_link : (s.openChannel c).link = s.link := rfl
@[simp] theorem State.openChannel_mem : (s.openChannel c).mem = s.mem := rfl
@[simp] theorem State.openChannel_cfg : (s.openChannel c).cfg = s.cfg := rfl
@[simp] theorem State.openChannel_host : (s.openChannel c).host = s.host := rfl
@[simp] theorem State.openChannel_hostReads : (s.openChannel c).hostReads = s.hostReads := rfl
@[simp] theorem State.openChannel_hostSection : (s.openChannel c).hostSection = s.hostSection := rfl
@[simp] theorem State.openChannel_draws : (s.openChannel c).draws = s.draws := rfl

end openChannel

section setLink
variable (s : State) (p : Fin 8) (k : Link)

@[simp] theorem State.setLink_cmd : (s.setLink p k).cmd = s.cmd := rfl
@[simp] theorem State.setLink_status : (s.setLink p k).status = s.status := rfl
@[simp] theorem State.setLink_arg0 : (s.setLink p k).arg0 = s.arg0 := rfl
@[simp] theorem State.setLink_arg1 : (s.setLink p k).arg1 = s.arg1 := rfl
@[simp] theorem State.setLink_arg2 : (s.setLink p k).arg2 = s.arg2 := rfl
@[simp] theorem State.setLink_arg3 : (s.setLink p k).arg3 = s.arg3 := rfl
@[simp] theorem State.setLink_res0 : (s.setLink p k).res0 = s.res0 := rfl
@[simp] theorem State.setLink_res1 : (s.setLink p k).res1 = s.res1 := rfl
@[simp] theorem State.setLink_res2 : (s.setLink p k).res2 = s.res2 := rfl
@[simp] theorem State.setLink_deviceAddr : (s.setLink p k).deviceAddr = s.deviceAddr := rfl
@[simp] theorem State.setLink_numPorts : (s.setLink p k).numPorts = s.numPorts := rfl
@[simp] theorem State.setLink_route : (s.setLink p k).route = s.route := rfl
@[simp] theorem State.setLink_vc : (s.setLink p k).vc = s.vc := rfl
@[simp] theorem State.setLink_link : (s.setLink p k).link = s.link.set p k := rfl
@[simp] theorem State.setLink_mem : (s.setLink p k).mem = s.mem := rfl
@[simp] theorem State.setLink_cfg : (s.setLink p k).cfg = s.cfg := rfl
@[simp] theorem State.setLink_host : (s.setLink p k).host = s.host := rfl
@[simp] theorem State.setLink_hostReads : (s.setLink p k).hostReads = s.hostReads := rfl
@[simp] theorem State.setLink_hostSection : (s.setLink p k).hostSection = s.hostSection := rfl
@[simp] theorem State.setLink_draws : (s.setLink p k).draws = s.draws := rfl

end setLink

section initRouter
variable (s : State) (a n : Byte)

@[simp] theorem State.initRouter_cmd : (s.initRouter a n).cmd = s.cmd := rfl
@[simp] theorem State.initRouter_status : (s.initRouter a n).status = s.status := rfl
@[simp] theorem State.initRouter_arg0 : (s.initRouter a n).arg0 = s.arg0 := rfl
@[simp] theorem State.initRouter_arg1 : (s.initRouter a n).arg1 = s.arg1 := rfl
@[simp] theorem State.initRouter_arg2 : (s.initRouter a n).arg2 = s.arg2 := rfl
@[simp] theorem State.initRouter_arg3 : (s.initRouter a n).arg3 = s.arg3 := rfl
@[simp] theorem State.initRouter_res0 : (s.initRouter a n).res0 = s.res0 := rfl
@[simp] theorem State.initRouter_res1 : (s.initRouter a n).res1 = s.res1 := rfl
@[simp] theorem State.initRouter_res2 : (s.initRouter a n).res2 = s.res2 := rfl
@[simp] theorem State.initRouter_deviceAddr : (s.initRouter a n).deviceAddr = a := rfl
@[simp] theorem State.initRouter_numPorts : (s.initRouter a n).numPorts = clampPorts n := rfl
@[simp] theorem State.initRouter_route : (s.initRouter a n).route = Vector.replicate 8 routeEmpty := rfl
@[simp] theorem State.initRouter_vc : (s.initRouter a n).vc = Vector.replicate 16 Channel.initial := rfl
@[simp] theorem State.initRouter_link : (s.initRouter a n).link = Vector.ofFn fun p => (s.link[p]).routerInit p := rfl
@[simp] theorem State.initRouter_mem : (s.initRouter a n).mem = s.mem := rfl
@[simp] theorem State.initRouter_cfg : (s.initRouter a n).cfg = s.cfg := rfl
@[simp] theorem State.initRouter_host : (s.initRouter a n).host = s.host := rfl
@[simp] theorem State.initRouter_hostReads : (s.initRouter a n).hostReads = s.hostReads := rfl
@[simp] theorem State.initRouter_hostSection : (s.initRouter a n).hostSection = s.hostSection := rfl
@[simp] theorem State.initRouter_draws : (s.initRouter a n).draws = s.draws := rfl

end initRouter

section setCmd
variable (s : State) (w : Word)

@[simp] theorem State.setCmd_cmd : (s.setCmd w).cmd = w := rfl
@[simp] theorem State.setCmd_status : (s.setCmd w).status = s.status := rfl
@[simp] theorem State.setCmd_arg0 : (s.setCmd w).arg0 = s.arg0 := rfl
@[simp] theorem State.setCmd_arg1 : (s.setCmd w).arg1 = s.arg1 := rfl
@[simp] theorem State.setCmd_arg2 : (s.setCmd w).arg2 = s.arg2 := rfl
@[simp] theorem State.setCmd_arg3 : (s.setCmd w).arg3 = s.arg3 := rfl
@[simp] theorem State.setCmd_res0 : (s.setCmd w).res0 = s.res0 := rfl
@[simp] theorem State.setCmd_res1 : (s.setCmd w).res1 = s.res1 := rfl
@[simp] theorem State.setCmd_res2 : (s.setCmd w).res2 = s.res2 := rfl
@[simp] theorem State.setCmd_deviceAddr : (s.setCmd w).deviceAddr = s.deviceAddr := rfl
@[simp] theorem State.setCmd_numPorts : (s.setCmd w).numPorts = s.numPorts := rfl
@[simp] theorem State.setCmd_route : (s.setCmd w).route = s.route := rfl
@[simp] theorem State.setCmd_vc : (s.setCmd w).vc = s.vc := rfl
@[simp] theorem State.setCmd_link : (s.setCmd w).link = s.link := rfl
@[simp] theorem State.setCmd_mem : (s.setCmd w).mem = s.mem := rfl
@[simp] theorem State.setCmd_cfg : (s.setCmd w).cfg = s.cfg := rfl
@[simp] theorem State.setCmd_host : (s.setCmd w).host = s.host := rfl
@[simp] theorem State.setCmd_hostReads : (s.setCmd w).hostReads = s.hostReads := rfl
@[simp] theorem State.setCmd_hostSection : (s.setCmd w).hostSection = s.hostSection := rfl
@[simp] theorem State.setCmd_draws : (s.setCmd w).draws = s.draws := rfl

end setCmd

section observe
variable (s : State) (w : Word)

@[simp] theorem State.observe_cmd : (s.observe w).cmd = s.cmd := rfl
@[simp] theorem State.observe_status : (s.observe w).status = s.status := rfl
@[simp] theorem State.observe_arg0 : (s.observe w).arg0 = s.arg0 := rfl
@[simp] theorem State.observe_arg1 : (s.observe w).arg1 = s.arg1 := rfl
@[simp] theorem State.observe_arg2 : (s.observe w).arg2 = s.arg2 := rfl
@[simp] theorem State.observe_arg3 : (s.observe w).arg3 = s.arg3 := rfl
@[simp] theorem State.observe_res0 : (s.observe w).res0 = s.res0 := rfl
@[simp] theorem State.observe_res1 : (s.observe w).res1 = s.res1 := rfl
@[simp] theorem State.observe_res2 : (s.observe w).res2 = s.res2 := rfl
@[simp] theorem State.observe_deviceAddr : (s.observe w).deviceAddr = s.deviceAddr := rfl
@[simp] theorem State.observe_numPorts : (s.observe w).numPorts = s.numPorts := rfl
@[simp] theorem State.observe_route : (s.observe w).route = s.route := rfl
@[simp] theorem State.observe_vc : (s.observe w).vc = s.vc := rfl
@[simp] theorem State.observe_link : (s.observe w).link = s.link := rfl
@[simp] theorem State.observe_mem : (s.observe w).mem = s.mem := rfl
@[simp] theorem State.observe_cfg : (s.observe w).cfg = s.cfg := rfl
@[simp] theorem State.observe_host : (s.observe w).host = s.host := rfl
@[simp] theorem State.observe_hostReads : (s.observe w).hostReads = w :: s.hostReads := rfl
@[simp] theorem State.observe_hostSection : (s.observe w).hostSection = s.hostSection := rfl
@[simp] theorem State.observe_draws : (s.observe w).draws = s.draws := rfl

end observe

section setHost
variable (s : State) (rest : List HostAction)

@[simp] theorem State.setHost_cmd : (s.setHost rest).cmd = s.cmd := rfl
@[simp] theorem State.setHost_status : (s.setHost rest).status = s.status := rfl
@[simp] theorem State.setHost_arg0 : (s.setHost rest).arg0 = s.arg0 := rfl
@[simp] theorem State.setHost_arg1 : (s.setHost rest).arg1 = s.arg1 := rfl
@[simp] theorem State.setHost_arg2 : (s.setHost rest).arg2 = s.arg2 := rfl
@[simp] theorem State.setHost_arg3 : (s.setHost rest).arg3 = s.arg3 := rfl
@[simp] theorem State.setHost_res0 : (s.setHost rest).res0 = s.res0 := rfl
@[simp] theorem State.setHost_res1 : (s.setHost rest).res1 = s.res1 := rfl
@[simp] theorem State.setHost_res2 : (s.setHost rest).res2 = s.res2 := rfl
@[simp] theorem State.setHost_deviceAddr : (s.setHost rest).deviceAddr = s.deviceAddr := rfl
@[simp] theorem State.setHost_numPorts : (s.setHost rest).numPorts = s.numPorts := rfl
@[simp] theorem State.setHost_route : (s.setHost rest).route = s.route := rfl
@[simp] theorem State.setHost_vc : (s.setHost rest).vc = s.vc := rfl
@[simp] theorem State.setHost_link : (s.setHost rest).link = s.link := rfl
@[simp] theorem State.setHost_mem : (s.setHost rest).mem = s.mem := rfl
@[simp] theorem State.setHost_cfg : (s.setHost rest).cfg = s.cfg := rfl
@[simp] theorem State.setHost_host : (s.setHost rest).host = rest := rfl
@[simp] theorem State.setHost_hostReads : (s.setHost rest).hostReads = s.hostReads := rfl
@[simp] theorem State.setHost_hostSection : (s.setHost rest).hostSection = s.hostSection := rfl
@[simp] theorem State.setHost_draws : (s.setHost rest).draws = s.draws := rfl

end setHost

section setSection
variable (s : State) (k : HostSection)

@[simp] theorem State.setSection_cmd : (s.setSection k).cmd = s.cmd := rfl
@[simp] theorem State.setSection_status : (s.setSection k).status = s.status := rfl
@[simp] theorem State.setSection_arg0 : (s.setSection k).arg0 = s.arg0 := rfl
@[simp] theorem State.setSection_arg1 : (s.setSection k).arg1 = s.arg1 := rfl
@[simp] theorem State.setSection_arg2 : (s.setSection k).arg2 = s.arg2 := rfl
@[simp] theorem State.setSection_arg3 : (s.setSection k).arg3 = s.arg3 := rfl
@[simp] theorem State.setSection_res0 : (s.setSection k).res0 = s.res0 := rfl
@[simp] theorem State.setSection_res1 : (s.setSection k).res1 = s.res1 := rfl
@[simp] theorem State.setSection_res2 : (s.setSection k).res2 = s.res2 := rfl
@[simp] theorem State.setSection_deviceAddr : (s.setSection k).deviceAddr = s.deviceAddr := rfl
@[simp] theorem State.setSection_numPorts : (s.setSection k).numPorts = s.numPorts := rfl
@[simp] theorem State.setSection_route : (s.setSection k).route = s.route := rfl
@[simp] theorem State.setSection_vc : (s.setSection k).vc = s.vc := rfl
@[simp] theorem State.setSection_link : (s.setSection k).link = s.link := rfl
@[simp] theorem State.setSection_mem : (s.setSection k).mem = s.mem := rfl
@[simp] theorem State.setSection_cfg : (s.setSection k).cfg = s.cfg := rfl
@[simp] theorem State.setSection_host : (s.setSection k).host = s.host := rfl
@[simp] theorem State.setSection_hostReads : (s.setSection k).hostReads = s.hostReads := rfl
@[simp] theorem State.setSection_hostSection : (s.setSection k).hostSection = k := rfl
@[simp] theorem State.setSection_draws : (s.setSection k).draws = s.draws := rfl

end setSection

section afterReset
variable (s : State)

@[simp] theorem State.afterReset_cmd : (s.afterReset).cmd = State.reset.cmd := rfl
@[simp] theorem State.afterReset_status : (s.afterReset).status = State.reset.status := rfl
@[simp] theorem State.afterReset_arg0 : (s.afterReset).arg0 = State.reset.arg0 := rfl
@[simp] theorem State.afterReset_arg1 : (s.afterReset).arg1 = State.reset.arg1 := rfl
@[simp] theorem State.afterReset_arg2 : (s.afterReset).arg2 = State.reset.arg2 := rfl
@[simp] theorem State.afterReset_arg3 : (s.afterReset).arg3 = State.reset.arg3 := rfl
@[simp] theorem State.afterReset_res0 : (s.afterReset).res0 = State.reset.res0 := rfl
@[simp] theorem State.afterReset_res1 : (s.afterReset).res1 = State.reset.res1 := rfl
@[simp] theorem State.afterReset_res2 : (s.afterReset).res2 = State.reset.res2 := rfl
@[simp] theorem State.afterReset_deviceAddr : (s.afterReset).deviceAddr = State.reset.deviceAddr := rfl
@[simp] theorem State.afterReset_numPorts : (s.afterReset).numPorts = State.reset.numPorts := rfl
@[simp] theorem State.afterReset_route : (s.afterReset).route = State.reset.route := rfl
@[simp] theorem State.afterReset_vc : (s.afterReset).vc = State.reset.vc := rfl
@[simp] theorem State.afterReset_link : (s.afterReset).link = State.reset.link := rfl
@[simp] theorem State.afterReset_mem : (s.afterReset).mem = s.mem := rfl
@[simp] theorem State.afterReset_cfg : (s.afterReset).cfg = s.cfg := rfl
@[simp] theorem State.afterReset_host : (s.afterReset).host = s.host := rfl
@[simp] theorem State.afterReset_hostReads : (s.afterReset).hostReads = s.hostReads := rfl
@[simp] theorem State.afterReset_hostSection : (s.afterReset).hostSection = HostSection.closed := rfl
@[simp] theorem State.afterReset_draws : (s.afterReset).draws = s.draws := rfl

end afterReset

section smearRange
variable (s : State) (a n : Nat)

@[simp] theorem State.smearRange_cmd : (s.smearRange a n).cmd = s.cmd := rfl
@[simp] theorem State.smearRange_status : (s.smearRange a n).status = s.status := rfl
@[simp] theorem State.smearRange_arg0 : (s.smearRange a n).arg0 = s.arg0 := rfl
@[simp] theorem State.smearRange_arg1 : (s.smearRange a n).arg1 = s.arg1 := rfl
@[simp] theorem State.smearRange_arg2 : (s.smearRange a n).arg2 = s.arg2 := rfl
@[simp] theorem State.smearRange_arg3 : (s.smearRange a n).arg3 = s.arg3 := rfl
@[simp] theorem State.smearRange_res0 : (s.smearRange a n).res0 = s.res0 := rfl
@[simp] theorem State.smearRange_res1 : (s.smearRange a n).res1 = s.res1 := rfl
@[simp] theorem State.smearRange_res2 : (s.smearRange a n).res2 = s.res2 := rfl
@[simp] theorem State.smearRange_deviceAddr : (s.smearRange a n).deviceAddr = s.deviceAddr := rfl
@[simp] theorem State.smearRange_numPorts : (s.smearRange a n).numPorts = s.numPorts := rfl
@[simp] theorem State.smearRange_route : (s.smearRange a n).route = s.route := rfl
@[simp] theorem State.smearRange_vc : (s.smearRange a n).vc = s.vc := rfl
@[simp] theorem State.smearRange_link : (s.smearRange a n).link = s.link := rfl
@[simp] theorem State.smearRange_mem : (s.smearRange a n).mem = s.mem.smear s.draws a n := rfl
@[simp] theorem State.smearRange_cfg : (s.smearRange a n).cfg = s.cfg := rfl
@[simp] theorem State.smearRange_host : (s.smearRange a n).host = s.host := rfl
@[simp] theorem State.smearRange_hostReads : (s.smearRange a n).hostReads = s.hostReads := rfl
@[simp] theorem State.smearRange_hostSection : (s.smearRange a n).hostSection = s.hostSection := rfl
@[simp] theorem State.smearRange_draws : (s.smearRange a n).draws = s.draws + n := rfl

end smearRange

section setArg
variable (s : State) (k : Fin 4) (w : Word)

@[simp] theorem State.setArg_cmd : (s.setArg k w).cmd = s.cmd := by fin_cases k <;> rfl
@[simp] theorem State.setArg_status : (s.setArg k w).status = s.status := by fin_cases k <;> rfl
@[simp] theorem State.setArg_arg0 : (s.setArg k w).arg0 = if k = 0 then w else s.arg0 := by
  fin_cases k <;> rfl
@[simp] theorem State.setArg_arg1 : (s.setArg k w).arg1 = if k = 1 then w else s.arg1 := by
  fin_cases k <;> rfl
@[simp] theorem State.setArg_arg2 : (s.setArg k w).arg2 = if k = 2 then w else s.arg2 := by
  fin_cases k <;> rfl
@[simp] theorem State.setArg_arg3 : (s.setArg k w).arg3 = if k = 3 then w else s.arg3 := by
  fin_cases k <;> rfl
@[simp] theorem State.setArg_res0 : (s.setArg k w).res0 = s.res0 := by fin_cases k <;> rfl
@[simp] theorem State.setArg_res1 : (s.setArg k w).res1 = s.res1 := by fin_cases k <;> rfl
@[simp] theorem State.setArg_res2 : (s.setArg k w).res2 = s.res2 := by fin_cases k <;> rfl
@[simp] theorem State.setArg_deviceAddr : (s.setArg k w).deviceAddr = s.deviceAddr := by fin_cases k <;> rfl
@[simp] theorem State.setArg_numPorts : (s.setArg k w).numPorts = s.numPorts := by fin_cases k <;> rfl
@[simp] theorem State.setArg_route : (s.setArg k w).route = s.route := by fin_cases k <;> rfl
@[simp] theorem State.setArg_vc : (s.setArg k w).vc = s.vc := by fin_cases k <;> rfl
@[simp] theorem State.setArg_link : (s.setArg k w).link = s.link := by fin_cases k <;> rfl
@[simp] theorem State.setArg_mem : (s.setArg k w).mem = s.mem := by fin_cases k <;> rfl
@[simp] theorem State.setArg_cfg : (s.setArg k w).cfg = s.cfg := by fin_cases k <;> rfl
@[simp] theorem State.setArg_host : (s.setArg k w).host = s.host := by fin_cases k <;> rfl
@[simp] theorem State.setArg_hostReads : (s.setArg k w).hostReads = s.hostReads := by fin_cases k <;> rfl
@[simp] theorem State.setArg_hostSection : (s.setArg k w).hostSection = s.hostSection := by fin_cases k <;> rfl
@[simp] theorem State.setArg_draws : (s.setArg k w).draws = s.draws := by fin_cases k <;> rfl

end setArg

section routerInit
variable (k : Link) (p : Fin 8)

@[simp] theorem Link.routerInit_portId : (k.routerInit p).portId = BitVec.ofNat 8 p := rfl
@[simp] theorem Link.routerInit_state : (k.routerInit p).state = .uninitialized := rfl
@[simp] theorem Link.routerInit_txPackets : (k.routerInit p).txPackets = 0 := rfl
@[simp] theorem Link.routerInit_rxPackets : (k.routerInit p).rxPackets = 0 := rfl
@[simp] theorem Link.routerInit_errors : (k.routerInit p).errors = 0 := rfl
@[simp] theorem Link.routerInit_bitRate : (k.routerInit p).bitRate = k.bitRate := rfl
@[simp] theorem Link.routerInit_disconnectTimeout : (k.routerInit p).disconnectTimeout = k.disconnectTimeout := rfl
@[simp] theorem Link.routerInit_maxRxCredits : (k.routerInit p).maxRxCredits = k.maxRxCredits := rfl
@[simp] theorem Link.routerInit_crcEnable : (k.routerInit p).crcEnable = k.crcEnable := rfl
@[simp] theorem Link.routerInit_rxCredits : (k.routerInit p).rxCredits = k.rxCredits := rfl
@[simp] theorem Link.routerInit_txCredits : (k.routerInit p).txCredits = k.txCredits := rfl

end routerInit

section countTx
variable (k : Link)

@[simp] theorem Link.countTx_portId : (k.countTx).portId = k.portId := rfl
@[simp] theorem Link.countTx_state : (k.countTx).state = k.state := rfl
@[simp] theorem Link.countTx_txPackets : (k.countTx).txPackets = k.txPackets + 1 := rfl
@[simp] theorem Link.countTx_rxPackets : (k.countTx).rxPackets = k.rxPackets := rfl
@[simp] theorem Link.countTx_errors : (k.countTx).errors = k.errors := rfl
@[simp] theorem Link.countTx_bitRate : (k.countTx).bitRate = k.bitRate := rfl
@[simp] theorem Link.countTx_disconnectTimeout : (k.countTx).disconnectTimeout = k.disconnectTimeout := rfl
@[simp] theorem Link.countTx_maxRxCredits : (k.countTx).maxRxCredits = k.maxRxCredits := rfl
@[simp] theorem Link.countTx_crcEnable : (k.countTx).crcEnable = k.crcEnable := rfl
@[simp] theorem Link.countTx_rxCredits : (k.countTx).rxCredits = k.rxCredits := rfl
@[simp] theorem Link.countTx_txCredits : (k.countTx).txCredits = k.txCredits := rfl

end countTx

section configure
variable (k : Link) (rate timeout : Word) (credits : Half) (crc : BitVec 1)

@[simp] theorem Link.configure_portId : (k.configure rate timeout credits crc).portId = k.portId := rfl
@[simp] theorem Link.configure_state : (k.configure rate timeout credits crc).state = .uninitialized := rfl
@[simp] theorem Link.configure_txPackets : (k.configure rate timeout credits crc).txPackets = k.txPackets := rfl
@[simp] theorem Link.configure_rxPackets : (k.configure rate timeout credits crc).rxPackets = k.rxPackets := rfl
@[simp] theorem Link.configure_errors : (k.configure rate timeout credits crc).errors = k.errors := rfl
@[simp] theorem Link.configure_bitRate : (k.configure rate timeout credits crc).bitRate = rate := rfl
@[simp] theorem Link.configure_disconnectTimeout : (k.configure rate timeout credits crc).disconnectTimeout = timeout := rfl
@[simp] theorem Link.configure_maxRxCredits : (k.configure rate timeout credits crc).maxRxCredits = credits := rfl
@[simp] theorem Link.configure_crcEnable : (k.configure rate timeout credits crc).crcEnable = crc := rfl
@[simp] theorem Link.configure_rxCredits : (k.configure rate timeout credits crc).rxCredits = credits := rfl
@[simp] theorem Link.configure_txCredits : (k.configure rate timeout credits crc).txCredits = 0 := rfl

end configure

section withState
variable (k : Link) (st : LinkState)

@[simp] theorem Link.withState_portId : (k.withState st).portId = k.portId := rfl
@[simp] theorem Link.withState_state : (k.withState st).state = st := rfl
@[simp] theorem Link.withState_txPackets : (k.withState st).txPackets = k.txPackets := rfl
@[simp] theorem Link.withState_rxPackets : (k.withState st).rxPackets = k.rxPackets := rfl
@[simp] theorem Link.withState_errors : (k.withState st).errors = k.errors := rfl
@[simp] theorem Link.withState_bitRate : (k.withState st).bitRate = k.bitRate := rfl
@[simp] theorem Link.withState_disconnectTimeout : (k.withState st).disconnectTimeout = k.disconnectTimeout := rfl
@[simp] theorem Link.withState_maxRxCredits : (k.withState st).maxRxCredits = k.maxRxCredits := rfl
@[simp] theorem Link.withState_crcEnable : (k.withState st).crcEnable = k.crcEnable := rfl
@[simp] theorem Link.withState_rxCredits : (k.withState st).rxCredits = k.rxCredits := rfl
@[simp] theorem Link.withState_txCredits : (k.withState st).txCredits = k.txCredits := rfl

end withState

end Sys2Proof.Machine
end

