-- ==== Sys2Proof/Laws/Ops.lean ====
section
/-! SUPPORT. What the shared operations can do, each said once: `Admit` and the footprint check, the index operands, the
writes of a frame, and every command at once (`exec_next`). -/

namespace Sys2Proof.Machine

/-! ### `Admit` and the footprint -/

/-- An admitted range that is not empty ends inside the 32-bit space (20_memory.md R63). -/
theorem admitted_bound {c : Config} {a n : Nat} (h : admitted c a n = true) (hn : n ≠ 0) : a + n ≤ addrTop := by
  simp only [admitted, Bool.or_eq_true, Bool.and_eq_true, beq_iff_eq, decide_eq_true_eq] at h
  omega

/-- The footprint check goes on only when every range is admitted and none has a side effect (R64, R66). -/
theorem withFootprint_next {s t : State} {ranges : List (Nat × Nat)} {k : Host.Outcome State Fault Refusal}
    (h : s.withFootprint ranges k = .next t) :
    (∀ r ∈ ranges, admitted s.cfg r.1 r.2 = true) ∧ (∀ r ∈ ranges, touchesDevice s.cfg r.1 r.2 = false) ∧
      k = .next t := by
  unfold State.withFootprint at h
  split at h
  · split at h
    · cases h
    · rename_i h1 h2
      refine ⟨fun r hr => List.all_eq_true.1 h1 r hr, fun r hr => ?_, h⟩
      simp only [List.any_eq_true, not_exists, not_and, Bool.not_eq_true] at h2
      exact h2 r hr
  · cases h

/-- The check goes on when every range is accessible. -/
theorem withFootprint_accessible {s : State} {ranges : List (Nat × Nat)} {k : Host.Outcome State Fault Refusal}
    (h : ∀ r ∈ ranges, s.accessible r.1 r.2 = true) : s.withFootprint ranges k = k := by
  simp only [State.accessible, Bool.and_eq_true, Bool.not_eq_true'] at h
  unfold State.withFootprint
  rw [if_pos (List.all_eq_true.2 fun r hr => (h r hr).1), if_neg]
  simp only [List.any_eq_true, not_exists, not_and, Bool.not_eq_true]
  exact fun r hr => (h r hr).2

/-- Ranges that do not overlap lie one after the other (R152, R153). -/
theorem overlaps_false {x m y k : Nat} (h : overlaps x m y k = false) (hm : m ≠ 0) (hk : k ≠ 0) :
    x + m ≤ y ∨ y + k ≤ x := by
  simp only [overlaps, Bool.and_eq_false_iff, decide_eq_false_iff_not] at h
  omega

/-! ### Ending a command -/

@[simp] theorem raise_eq (c : Code) (s : State) : raise c s = .next (s.finish c 0 0 0) := rfl

@[simp] theorem done_eq (c : Code) (r0 r1 r2 : Word) (s : State) :
    done c r0 r1 r2 s = .next (s.finish c r0 r1 r2) := rfl

/-! ### Index operands -/

theorem portIndex_some {q : Byte} {p : Fin 8} (h : portIndex q = some p) : q.toNat = p := by
  unfold portIndex at h
  split at h
  · cases h; rfl
  · cases h

theorem destIndex_some {e : Byte} {d : Fin 8} (h : destIndex e = some d) : e.toNat = d := by
  unfold destIndex at h
  split at h
  · cases h; rfl
  · cases h

theorem chanIndex_some {c : Byte} {ch : Fin 16} (h : chanIndex c = some ch) : c.toNat = ch := by
  unfold chanIndex at h
  split at h
  · cases h; rfl
  · cases h

theorem portIndex_of_lt {q : Byte} (h : q.toNat < 8) : portIndex q = some ⟨q.toNat, h⟩ := dif_pos h

theorem portIndex_of_ge {q : Byte} (h : 8 ≤ q.toNat) : portIndex q = none := dif_neg (by simpa using h)

theorem destIndex_of_lt {e : Byte} (h : e.toNat < 8) : destIndex e = some ⟨e.toNat, h⟩ := dif_pos h

theorem destIndex_of_ge {e : Byte} (h : 8 ≤ e.toNat) : destIndex e = none := dif_neg (by simpa using h)

theorem chanIndex_of_lt {c : Byte} (h : c.toNat < 16) : chanIndex c = some ⟨c.toNat, h⟩ := dif_pos h

theorem chanIndex_of_ge {c : Byte} (h : 16 ≤ c.toNat) : chanIndex c = none := dif_neg (by simpa using h)

/-! ### The writes of a frame (42_frame_codec.md R150, R152) -/

section frameWrites
variable {init : Half} {t i : Byte} {pa ba n : Nat} {m : Memory}

/-- Outside the `N + 4` bytes of the frame, memory reads as before. -/
theorem read_frameWrites_outside (h : m.wf = true) (hb : ba + frameSize n ≤ addrTop) {x : Nat}
    (hx : x < ba ∨ ba + frameSize n ≤ x) : (frameWrites init t i pa ba n m).read x = m.read x := by
  simp only [frameSize, frameOverhead] at hb hx
  have h1 : (m.write ba t).wf = true := Memory.wf_write h (by omega)
  have h2 : ((m.write ba t).write (ba + 1) i).wf = true := Memory.wf_write h1 (by omega)
  have h3 := Memory.wf_copyBytes (src := pa) (dst := ba + 2) (n := n) h2 (by omega)
  simp only [frameWrites]
  rw [Memory.read_write (Memory.wf_write h3 (by omega)), if_neg (by omega), Memory.read_write h3, if_neg (by omega),
    Memory.read_copyBytes_outside h2 (by omega) (by omega), Memory.read_write h1, if_neg (by omega),
    Memory.read_write h, if_neg (by omega)]

/-- The `N + 4` bytes of the frame are the layout of R150 over the payload that stood in memory before, when payload and
destination share no address (or there is no payload). -/
theorem readBytes_frameWrites (h : m.wf = true) (hb : ba + frameSize n ≤ addrTop)
    (hdis : n = 0 ∨ pa + n ≤ ba ∨ ba + frameSize n ≤ pa) :
    (frameWrites init t i pa ba n m).readBytes ba (frameSize n) = frameBytes init t i (m.readBytes pa n) := by
  simp only [frameSize, frameOverhead] at hb hdis ⊢
  have h1 : (m.write ba t).wf = true := Memory.wf_write h (by omega)
  have h2 : ((m.write ba t).write (ba + 1) i).wf = true := Memory.wf_write h1 (by omega)
  have h3 := Memory.wf_copyBytes (src := pa) (dst := ba + 2) (n := n) h2 (by omega)
  have payload : (((m.write ba t).write (ba + 1) i).copyBytes pa (ba + 2) n).readBytes (ba + 2) n =
      m.readBytes pa n := by
    rcases Nat.eq_zero_or_pos n with hn | hn
    · subst hn; rfl
    · rw [Memory.readBytes_copyBytes h2 (by omega) (by omega)]
      exact Memory.readBytes_congr fun x _ _ => by
        rw [Memory.read_write h1, if_neg (by omega), Memory.read_write h, if_neg (by omega)]
  have body : (((m.write ba t).write (ba + 1) i).copyBytes pa (ba + 2) n).readBytes ba (2 + n) =
      t :: i :: m.readBytes pa n := by
    rw [Memory.readBytes_add, payload]
    simp only [Memory.readBytes, List.cons_append, List.nil_append]
    rw [Memory.read_copyBytes_outside h2 (by omega) (by omega),
      Memory.read_copyBytes_outside h2 (by omega) (by omega), Memory.read_write h1, if_neg (by omega),
      Memory.read_write h, if_pos rfl, Memory.read_write h1, if_pos rfl]
  have h4 := fun v => Memory.wf_write (v := v) (a := ba + 2 + n) h3 (by omega)
  simp only [frameWrites, frameBytes]
  rw [show 4 + n = (2 + n) + 2 by omega, Memory.readBytes_add]
  refine congrArg₂ (· ++ ·) ?_ ?_
  · rw [← body]
    exact Memory.readBytes_congr fun x _ _ => by
      rw [Memory.read_write (h4 _), if_neg (by omega), Memory.read_write h3, if_neg (by omega)]
  · simp only [Memory.readBytes, body]
    rw [Memory.read_write (h4 _), if_neg (by omega), Memory.read_write h3, if_pos (by omega),
      Memory.read_write (h4 _), if_pos (by omega)]

end frameWrites

/-! ### Every command at once -/

/-- The write a command may make besides `STATUS` and the results: `CommandEffect i s u` says that `u` is `s` after it. -/
inductive CommandEffect : Instr → State → State → Prop where
  | nothing (i : Instr) (s : State) : CommandEffect i s s
  | frame (t p : Byte) (s : State) (hfits : fitsHalf s.arg1 = true)
      (hb : admitted s.cfg s.arg2.toNat (frameSize s.payloadLen) = true) :
      CommandEffect (.frameEnc t p) s
        (s.setMem (frameWrites s.cfg.crcInit t p s.arg0.toNat s.arg2.toNat s.payloadLen s.mem))
  | routerInit (a n : Byte) (s : State) : CommandEffect (.rtrInit a n) s (s.initRouter a n)
  | addRoute (e o : Byte) (s : State) (d : Fin 8) (hd : destIndex e = some d) (ho : o < s.numPorts) :
      CommandEffect (.rtrAddRoute e o) s (s.setRoute d o)
  | openChannel (c : Byte) (s : State) (ch : Fin 16) (hc : chanIndex c = some ch) :
      CommandEffect (.rtrOpenCh c) s (s.openChannel ch)
  | countTx (t : Byte) (s : State) (q : Fin 8) (hq : (s.link[q]).state = .connected) :
      CommandEffect (.rtrRoute t) s (s.setLink q (s.link[q]).countTx)
  | configure (q : Byte) (k : BitVec 1) (s : State) (p : Fin 8) (hp : portIndex q = some p) :
      CommandEffect (.linkInit q k) s (s.setLink p ((s.link[p]).configure s.arg0 s.arg1 (lowHalf s.arg2) k))
  | linkState (q : Byte) (st : BitVec 3) (s : State) (p : Fin 8) (v : LinkState) (hp : portIndex q = some p)
      (hv : linkStateOf st = some v) : CommandEffect (.linkSetState q st) s (s.setLink p ((s.link[p]).withState v))

/-- What a command that ends can have done: at most its one write, then one `finish` with a code of its own row. -/
def Ends (i : Instr) (s t : State) : Prop :=
  ∃ c ∈ codesOf i, ∃ r0 r1 r2 u, CommandEffect i s u ∧ (c ≠ .ok → u = s ∧ r0 = 0 ∧ r1 = 0 ∧ r2 = 0) ∧
    t = u.finish c r0 r1 r2

theorem ends_quiet {i : Instr} {s : State} {c : Code} (hc : c ∈ codesOf i) : Ends i s (s.finish c 0 0 0) :=
  ⟨c, hc, 0, 0, 0, s, .nothing i s, fun _ => ⟨rfl, rfl, rfl, rfl⟩, rfl⟩

theorem ends_ok {i : Instr} {s u : State} {r0 r1 r2 : Word} (hc : Code.ok ∈ codesOf i) (hu : CommandEffect i s u) :
    Ends i s (u.finish .ok r0 r1 r2) :=
  ⟨.ok, hc, r0, r1, r2, u, hu, fun h => absurd rfl h, rfl⟩

theorem execCharDec_ends {b : Byte} {p : BitVec 1} {s t : State} (h : execCharDec b p s = .next t) :
    Ends (.charDec b p) s t := by
  unfold execCharDec at h
  split at h
  · cases h; exact ends_quiet (by simp [codesOf])
  · split at h
    · rename_i m _
      cases h
      exact ends_quiet (by cases m <;> simp [codeOfMarker, codesOf])
    · cases h; exact ends_ok (by simp [codesOf]) (.nothing _ s)

theorem execFrameEnc_ends {t p : Byte} {s u : State} (h : execFrameEnc t p s = .next u) :
    Ends (.frameEnc t p) s u := by
  unfold execFrameEnc at h
  split at h
  · cases h; exact ends_quiet (by simp [codesOf])
  split at h
  · cases h; exact ends_quiet (by simp [codesOf])
  rename_i hfits
  split at h
  · cases h; exact ends_quiet (by simp [codesOf])
  split at h
  · cases h; exact ends_quiet (by simp [codesOf])
  split at h
  · cases h
  obtain ⟨ha, -, hk⟩ := withFootprint_next h
  cases hk
  exact ends_ok (by simp [codesOf]) (.frame t p s (by simpa using hfits) (ha _ (List.mem_cons_self ..)))

theorem execFrameDec_ends {s t : State} (h : execFrameDec s = .next t) : Ends .frameDec s t := by
  unfold execFrameDec at h
  split at h
  · cases h; exact ends_quiet (by simp [codesOf])
  split at h
  · cases h; exact ends_quiet (by simp [codesOf])
  split at h
  · cases h; exact ends_quiet (by simp [codesOf])
  obtain ⟨-, -, hk⟩ := withFootprint_next h
  split at hk
  · cases hk; exact ends_quiet (by simp [codesOf])
  · cases hk; exact ends_ok (by simp [codesOf]) (.nothing _ s)

theorem execRtrRoute_ends {t : Byte} {s u : State} (h : execRtrRoute t s = .next u) : Ends (.rtrRoute t) s u := by
  unfold execRtrRoute at h
  split at h
  · cases h; exact ends_quiet (by simp [codesOf])
  split at h
  · cases h; exact ends_quiet (by simp [codesOf])
  split at h
  · cases h; exact ends_quiet (by simp [codesOf])
  unfold routeVia at h
  split at h
  · cases h; exact ends_quiet (by simp [codesOf])
  split at h
  · rename_i hc; cases h; exact ends_ok (by simp [codesOf]) (.countTx t s _ hc)
  · cases h; exact ends_quiet (by simp [codesOf])

/-- Say once what a command can do: a command that answers a next state has made at most its one write and then ended with
one of its own codes; unless the code is `OK` it has made no write and the results are 0. -/
theorem exec_next {i : Instr} {s t : State} (h : exec i s = .next t) : Ends i s t := by
  cases i with
  | charEnc d => cases h; exact ends_ok (by simp [codesOf]) (.nothing _ s)
  | charDec b p => exact execCharDec_ends h
  | crc16 =>
    simp only [exec, execCrc16] at h
    split at h
    · cases h; exact ends_ok (by simp [codesOf]) (.nothing _ s)
    · obtain ⟨-, -, hk⟩ := withFootprint_next h
      cases hk; exact ends_ok (by simp [codesOf]) (.nothing _ s)
  | frameSize =>
    simp only [exec, execFrameSize] at h
    split at h
    · cases h; exact ends_ok (by simp [codesOf]) (.nothing _ s)
    · cases h; exact ends_quiet (by simp [codesOf])
  | frameEnc t p => exact execFrameEnc_ends h
  | frameDec => exact execFrameDec_ends h
  | rtrInit a n => cases h; exact ends_ok (by simp [codesOf]) (.routerInit a n s)
  | rtrAddRoute e o =>
    simp only [exec, execRtrAddRoute] at h
    split at h
    · cases h; exact ends_ok (by simp [codesOf]) (.nothing _ s)
    · rename_i d hd
      split at h
      · cases h; exact ends_ok (by simp [codesOf]) (.nothing _ s)
      · rename_i ho
        cases h
        exact ends_ok (by simp [codesOf]) (.addRoute e o s d hd (by simpa using ho))
  | rtrOpenCh c =>
    simp only [exec, execRtrOpenCh] at h
    split at h
    · cases h; exact ends_ok (by simp [codesOf]) (.nothing _ s)
    · rename_i ch hc
      cases h; exact ends_ok (by simp [codesOf]) (.openChannel c s ch hc)
  | rtrRoute t => exact execRtrRoute_ends h
  | rtrReadRoute e =>
    simp only [exec, execRtrReadRoute] at h
    split at h
    · cases h; exact ends_quiet (by simp [codesOf])
    · cases h; exact ends_ok (by simp [codesOf]) (.nothing _ s)
  | rtrReadCfg => cases h; exact ends_ok (by simp [codesOf]) (.nothing _ s)
  | vcRead c =>
    simp only [exec, execVcRead] at h
    split at h
    · cases h; exact ends_quiet (by simp [codesOf])
    · cases h; exact ends_ok (by simp [codesOf]) (.nothing _ s)
  | linkInit q k =>
    simp only [exec, execLinkInit] at h
    split at h
    · cases h; exact ends_quiet (by simp [codesOf])
    · rename_i p hp
      split at h
      · cases h; exact ends_ok (by simp [codesOf]) (.configure q k s p hp)
      · cases h; exact ends_quiet (by simp [codesOf])
  | linkSetState q st =>
    simp only [exec, execLinkSetState] at h
    split at h
    · cases h; exact ends_quiet (by simp [codesOf])
    · rename_i p hp
      split at h
      · cases h; exact ends_quiet (by simp [codesOf])
      · rename_i v hv
        cases h; exact ends_ok (by simp [codesOf]) (.linkState q st s p v hp hv)
  | linkRead q l =>
    simp only [exec, execLinkRead] at h
    split at h
    · cases h; exact ends_quiet (by simp [codesOf])
    · split at h
      · cases h; exact ends_quiet (by simp [codesOf])
      · cases h; exact ends_ok (by simp [codesOf]) (.nothing _ s)

end Sys2Proof.Machine
end

