-- ==== Sys2Proof/Laws/Frame.lean ====
section
/-! SUPPORT. Where `FRAME_ENC` and `FRAME_DEC` reach their access to memory, said once (42_frame_codec.md R152, R155), and
what an `OK` of `FRAME_ENC` says about its operands. -/

namespace Sys2Proof.Machine

theorem fitsHalf_iff (w : Word) : fitsHalf w = true ↔ w.toNat < 65536 := by
  have := w.isLt
  rw [fitsHalf, beq_iff_eq, ← BitVec.toNat_inj]
  simp [Nat.shiftRight_eq_div_pow]
  omega

theorem toNat_lowHalf {w : Word} (h : w.toNat < 65536) : (lowHalf w).toNat = w.toNat := by
  simp only [lowHalf, BitVec.extractLsb'_toNat]
  omega

theorem frameSize_eq (n : Nat) : frameSize n = n + 4 := Nat.add_comm 4 n

/-- A range of the footprint that is not admitted leaves the command stuck (20_memory.md R64). -/
theorem withFootprint_stuck {s : State} {a n : Nat} {ranges : List (Nat × Nat)} {k : Host.Outcome State Fault Refusal}
    (hr : (a, n) ∈ ranges) (h : admitted s.cfg a n = false) : s.withFootprint ranges k = .fault .stuck := by
  unfold State.withFootprint
  rw [if_neg]
  intro hall
  have := List.all_eq_true.1 hall _ hr
  simp [h] at this

/-- Past its argument checks and the overlap test, `FRAME_ENC` is its footprint check and its writes. -/
theorem execFrameEnc_go (t i : Byte) {s : State} (h2 : s.arg2 ≠ 0) (h1 : s.arg1.toNat < 65536)
    (h0 : s.arg0 = 0 → s.arg1 = 0) (hc : s.arg1.toNat + 4 ≤ s.arg3.toNat)
    (ho : overlaps s.arg0.toNat s.arg1.toNat s.arg2.toNat (s.arg1.toNat + 4) = false) :
    execFrameEnc t i s = s.withFootprint (frameEncFootprint s.arg0.toNat s.arg2.toNat s.arg1.toNat)
      (done .ok (s.arg1 + 4) 0 0
        (s.setMem (frameWrites s.cfg.crcInit t i s.arg0.toNat s.arg2.toNat s.arg1.toNat s.mem))) := by
  have hn : s.payloadLen = s.arg1.toNat := toNat_lowHalf h1
  have e : BitVec.ofNat 32 (s.arg1.toNat + 4) = s.arg1 + 4 := by apply BitVec.eq_of_toNat_eq; simp
  simp only [execFrameEnc, hn, frameSize_eq, e]
  rw [if_neg (show ¬s.arg2 = nullAddr from h2), if_neg (by rw [Bool.not_eq_false]; exact (fitsHalf_iff _).2 h1),
    if_neg, if_neg (by omega), ho, if_neg (by simp)]
  rintro ⟨a, b⟩
  have := h0 a
  rw [this] at b
  exact b rfl

/-- `FRAME_ENC` ends `OK` only past every check, with the writes of the frame made. -/
theorem execFrameEnc_ok {t i : Byte} {s u : State} (h : execFrameEnc t i s = .next u)
    (hu : u.status = Code.ok.toByte) :
    s.arg2 ≠ 0 ∧ s.arg1.toNat < 65536 ∧
      overlaps s.arg0.toNat s.arg1.toNat s.arg2.toNat (s.arg1.toNat + 4) = false ∧
      admitted s.cfg s.arg2.toNat (s.arg1.toNat + 4) = true ∧
      touchesDevice s.cfg s.arg2.toNat (s.arg1.toNat + 4) = false ∧
      u = (s.setMem (frameWrites s.cfg.crcInit t i s.arg0.toNat s.arg2.toNat s.arg1.toNat s.mem)).finish .ok
        (BitVec.ofNat 32 (s.arg1.toNat + 4)) 0 0 := by
  unfold execFrameEnc at h
  split at h
  · cases h; simp [Code.toByte] at hu
  rename_i h2
  split at h
  · cases h; simp [Code.toByte] at hu
  rename_i h1
  split at h
  · cases h; simp [Code.toByte] at hu
  split at h
  · cases h; simp [Code.toByte] at hu
  split at h
  · cases h
  rename_i ho
  have hf : s.arg1.toNat < 65536 := by rw [← fitsHalf_iff]; simpa using h1
  have hn : s.payloadLen = s.arg1.toNat := toNat_lowHalf hf
  obtain ⟨ha, hd, hk⟩ := withFootprint_next h
  simp only [hn, frameSize_eq] at ho ha hd hk
  have ha := ha _ (List.mem_cons_self ..)
  have hd := hd _ (List.mem_cons_self ..)
  simp only [frameSize_eq] at ha hd
  cases hk
  exact ⟨h2, hf, by simpa using ho, ha, hd, rfl⟩

/-- Past its argument checks, with an accessible footprint, `FRAME_DEC` is the comparison of the checksum. -/
theorem execFrameDec_go {s : State} (h : s.arg0 ≠ 0) (h4 : 4 ≤ s.arg1.toNat) (h5 : s.arg1.toNat ≤ 65539)
    (ha : s.accessible s.arg0.toNat s.arg1.toNat = true) :
    execFrameDec s =
      if s.crcOf s.arg0.toNat (s.arg1.toNat - 2) ≠ s.trailer s.arg0.toNat s.arg1.toNat then
        .next (s.finish .checksumMismatch 0 0 0)
      else
        .next (s.finish .ok (frameHeaderWord (s.mem.read (s.arg0.toNat + 1)) (s.mem.read s.arg0.toNat)) (s.arg0 + 2)
          (s.arg1 - 4)) := by
  simp only [execFrameDec, minFrame, maxFrame]
  rw [if_neg (show ¬s.arg0 = nullAddr from h), if_neg (by omega), if_neg (by omega),
    withFootprint_accessible (by simpa using ha)]
  rfl

end Sys2Proof.Machine
end

