-- ==== Sys2Proof/Laws/PerInstr.lean ====
section
/-! SUPPORT. Facts about every command as syntax, one lemma per constructor of `Instr`. Family `EncodeAccepted`: the word of
a command is accepted by its own row of the opcode map (30_encoding.md R82, R83) and has `F3 = 0` (R81). -/

namespace Sys2Proof.Laws.EncodeAccepted

/-- The row of the opcode map with this command's mnemonic accepts the command's word, and `F3` is zero. -/
def Statement (i : Instr) : Prop :=
  (∃ r ∈ opTable, r.mnemonic = i.mnemonic ∧ r.accepts (encode i) = true) ∧ fieldF3 (encode i) = 0

/-- The row at place `k` of the map, when it has the command's mnemonic and accepts the command's fields. -/
theorem of_row {i : Instr} {opc f1 f2 : Byte} (k : Nat) (hk : k < opTable.length) (he : encode i = assemble opc f1 f2 0)
    (hm : opTable[k].mnemonic = i.mnemonic)
    (h0 : opc &&& fieldOpc opTable[k].mask = fieldOpc opTable[k].matchBits)
    (h1 : f1 &&& fieldF1 opTable[k].mask = fieldF1 opTable[k].matchBits)
    (h2 : f2 &&& fieldF2 opTable[k].mask = fieldF2 opTable[k].matchBits)
    (h3 : 0 &&& fieldF3 opTable[k].mask = fieldF3 opTable[k].matchBits) : Statement i :=
  ⟨⟨opTable[k], List.getElem_mem _, hm, by rw [he]; exact (accepts_assemble _ _ _ _ _ _ _).2 ⟨h0, h1, h2, h3⟩⟩,
    by rw [he]; simp⟩

/-- An operand field: the row's mask and match are both 0 there. -/
theorem free_field (b : Byte) {m k : Byte} (hm : m = 0#8 := by decide) (hk : k = 0#8 := by decide) :
    b &&& m = k := by
  subst hm hk
  simp

theorem charEnc (d : Byte) : Statement (.charEnc d) :=
  of_row 0 (by decide) rfl rfl (by decide) (free_field d) (by decide) (by decide)

theorem charDec (b : Byte) (p : BitVec 1) : Statement (.charDec b p) :=
  of_row 1 (by decide) rfl rfl (by decide) (free_field b) (by revert p; decide) (by decide)

theorem crc16 : Statement .crc16 := of_row 2 (by decide) rfl rfl (by decide) (by decide) (by decide) (by decide)

theorem frameSize : Statement .frameSize := of_row 3 (by decide) rfl rfl (by decide) (by decide) (by decide) (by decide)

theorem frameEnc (t i : Byte) : Statement (.frameEnc t i) :=
  of_row 4 (by decide) rfl rfl (by decide) (free_field t) (free_field i) (by decide)

theorem frameDec : Statement .frameDec := of_row 5 (by decide) rfl rfl (by decide) (by decide) (by decide) (by decide)

theorem rtrInit (a n : Byte) : Statement (.rtrInit a n) :=
  of_row 6 (by decide) rfl rfl (by decide) (free_field a) (free_field n) (by decide)

theorem rtrAddRoute (e o : Byte) : Statement (.rtrAddRoute e o) :=
  of_row 7 (by decide) rfl rfl (by decide) (free_field e) (free_field o) (by decide)

theorem rtrOpenCh (c : Byte) : Statement (.rtrOpenCh c) :=
  of_row 8 (by decide) rfl rfl (by decide) (free_field c) (by decide) (by decide)

theorem rtrRoute (t : Byte) : Statement (.rtrRoute t) :=
  of_row 9 (by decide) rfl rfl (by decide) (free_field t) (by decide) (by decide)

theorem rtrReadRoute (e : Byte) : Statement (.rtrReadRoute e) :=
  of_row 10 (by decide) rfl rfl (by decide) (free_field e) (by decide) (by decide)

theorem rtrReadCfg : Statement .rtrReadCfg := of_row 11 (by decide) rfl rfl (by decide) (by decide) (by decide) (by decide)

theorem vcRead (c : Byte) : Statement (.vcRead c) :=
  of_row 12 (by decide) rfl rfl (by decide) (free_field c) (by decide) (by decide)

theorem linkInit (q : Byte) (k : BitVec 1) : Statement (.linkInit q k) :=
  of_row 13 (by decide) rfl rfl (by decide) (free_field q) (by revert k; decide) (by decide)

theorem linkSetState (q : Byte) (st : BitVec 3) : Statement (.linkSetState q st) :=
  of_row 14 (by decide) rfl rfl (by decide) (free_field q) (by revert st; decide) (by decide)

theorem linkRead (q l : Byte) : Statement (.linkRead q l) :=
  of_row 15 (by decide) rfl rfl (by decide) (free_field q) (free_field l) (by decide)

end Sys2Proof.Laws.EncodeAccepted
end

