-- ==== Sys2Proof/Laws/Step.lean ====
section
/-! SUPPORT. What one step can do: the oldest action is taken and performed; an access inside the register window reaches
the register at its offset; a write of `CMD` starts the command. -/

namespace Sys2Proof.Machine

/-- `finish` writes `STATUS` and the results and nothing else (00_scope.md R10). -/
theorem finish_only (s : State) (c : Code) (r0 r1 r2 : Word) : FinishedOnly s (s.finish c r0 r1 r2) c r0 r1 r2 :=
  ⟨⟨rfl, rfl, rfl, rfl⟩, ⟨rfl, rfl, rfl, rfl, rfl, rfl, rfl, rfl, rfl, rfl⟩, ⟨rfl, rfl, rfl, rfl, rfl⟩, fun _ => rfl⟩

theorem step_idle {s : State} (h : s.host = []) : step s = .next s := by
  unfold step
  rw [h]

theorem step_pending {s : State} {a : HostAction} {rest : List HostAction} (h : s.host = a :: rest) :
    step s = perform a (s.setHost rest) := by
  unfold step
  rw [h]

/-- A bus address inside the window is its offset (10_state.md R21). -/
theorem windowOffset_base_add (c : Config) (off : BitVec 6) : windowOffset c (c.base + off.setWidth 32) = some off := by
  have hsub : c.base + off.setWidth 32 - c.base = off.setWidth 32 := by
    rw [BitVec.add_comm, BitVec.add_sub_cancel]
  have hlt : (off.setWidth 32).toNat < 64 := by
    have := off.isLt
    simp only [BitVec.toNat_setWidth]
    omega
  unfold windowOffset
  rw [hsub, if_pos hlt]
  congr 1
  apply BitVec.eq_of_toNat_eq
  have := off.isLt
  simp only [BitVec.toNat_setWidth]
  omega

/-- An access inside the window: the register at the offset when it is aligned and 32 bits wide, else a refusal. -/
theorem registerAccess_base_add (s : State) (off : BitVec 6) (size : AccessSize)
    (k : BitVec 6 → Host.Outcome State Fault Refusal) :
    registerAccess (s.cfg.base + off.setWidth 32) size s k =
      if isRegisterAccess off size then k off else .refused .registerAccess := by
  simp only [registerAccess, windowOffset_base_add]

/-- The host's write of `w` to `CMD` is the start of its command (R22). -/
theorem step_cmdWrite {s : State} {w : Word} {rest : List HostAction} (h : s.host = cmdWrite s.cfg w :: rest) :
    step s = startCommand w (s.setHost rest) := by
  rw [step_pending h]
  have := registerAccess_base_add (s.setHost rest) 0 .word (fun off => writeRegister off w (s.setHost rest))
  simpa [perform, cmdWrite, isRegisterAccess, writeRegister] using this

/-- A started command that ends: the word ran to a next state, the host had not broken its section, and the section goes on
with what the command read (R286). -/
theorem startCommand_next {w : Word} {s t : State} (h : startCommand w s = .next t) :
    ∃ u, runWord w (s.setCmd w) = .next u ∧ s.hostSection.breaks (namedArgs w) (readFootprint w s u) = false ∧
      t = u.setSection (s.hostSection.afterCommand (namedArgs w) (readFootprint w s u)) := by
  unfold startCommand at h
  generalize runWord w (s.setCmd w) = o at h
  cases o with
  | next u =>
    simp only [endCommand] at h
    split at h
    · cases h
    · rename_i hb
      cases h
      exact ⟨u, rfl, by simpa using hb, rfl⟩
  | fault f => cases h
  | refused r => cases h

theorem readFootprint_ok {w : Word} {i : Instr} (h : decode w = .ok i) (s t : State) :
    readFootprint w s t = readsOf i s t := by
  unfold readFootprint
  rw [h]

theorem namedArgs_ok {w : Word} {i : Instr} (h : decode w = .ok i) : namedArgs w = argsRead i := by
  unfold namedArgs
  rw [h]

/-- A command that reads memory reads from `ARG0`, and is one of three (R83). -/
theorem mem_readsOf {i : Instr} {s t : State} {r : Nat × Nat} (h : r ∈ readsOf i s t) :
    r.1 = s.arg0.toNat ∧ ((i = .crc16 ∨ i = .frameDec) ∧ r.2 = s.arg1.toNat ∨
      (∃ d p, i = .frameEnc d p) ∧ t.status = Code.ok.toByte ∧ r.2 = s.payloadLen) := by
  unfold readsOf at h
  split at h <;> simp_all

/-- With no byte written in a section, no command breaks it. -/
theorem HostSection.breaks_of_nil {h : HostSection} (hw : h.written = []) (named : List (Fin 4))
    (ranges : List (Nat × Nat)) : h.breaks named ranges = false := by
  simp [HostSection.breaks, hw]

/-- A command that reads no memory breaks no section. -/
theorem HostSection.breaks_nil (h : HostSection) (named : List (Fin 4)) : h.breaks named [] = false := by
  simp [HostSection.breaks, inRanges]

/-- One of the registers a command names is among these. -/
theorem namesOne_iff {named operands : List (Fin 4)} :
    namesOne named operands = true ↔ ∃ k ∈ operands, k ∈ named := by
  simp [namesOne]

/-- The byte lies in one of the ranges. -/
theorem inRanges_iff {ranges : List (Nat × Nat)} {a : Nat} :
    inRanges ranges a = true ↔ ∃ r ∈ ranges, r.1 ≤ a ∧ a < r.1 + r.2 := by
  simp [inRanges]

/-- A command word that ends: its command has ended, or it is no command and that is all it reports. -/
theorem runWord_next {w : Word} {s t : State} (h : runWord w s = .next t) :
    (∃ i, decode w = .ok i ∧ Ends i s t) ∨ ((∀ i, decode w ≠ .ok i) ∧ t = s.finish .illegalCommand 0 0 0) := by
  unfold runWord at h
  split at h
  · rename_i i hi
    exact .inl ⟨i, hi, exec_next h⟩
  · rename_i e he
    cases h
    exact .inr ⟨by simp [he], rfl⟩

end Sys2Proof.Machine
end

