-- ==== Sys2Proof/Tests/Slice0.lean ====
section
/-! SUPPORT. The model's own tests: ill-formed words, decoding, one step per instruction, the host's side, and one witness
per statement that has hypotheses. Every expected result is taken from 95_test_vectors.md (V.., P..) or from the rule named. -/

open Sys2Proof Sys2Proof.Machine

namespace Sys2Proof.Tests

set_option Elab.async false -- one proof at a time: each kernel check would hold a stack of its own

/-! ### Helpers -/

def nextOf : Host.Outcome State Fault Refusal → Option State
  | .next t => some t
  | .fault _ => none
  | .refused _ => none

def faultOf : Host.Outcome State Fault Refusal → Option Fault
  | .next _ => none
  | .fault r => some r
  | .refused _ => none

def refusalOf : Host.Outcome State Fault Refusal → Option Refusal
  | .next _ => none
  | .fault _ => none
  | .refused r => some r

theorem of_nextOf {o : Host.Outcome State Fault Refusal} {t : State} (h : nextOf o = some t) : o = .next t := by
  cases o <;> simp_all [nextOf]

theorem next_of_isSome {o : Host.Outcome State Fault Refusal} (h : (nextOf o).isSome = true) : ∃ t, o = .next t := by
  obtain ⟨t, ht⟩ := Option.isSome_iff_exists.1 h
  exact ⟨t, of_nextOf ht⟩

/-- The word issued to the block as the host does it, one step. -/
def issue (s : State) (w : Nat) : Host.Outcome State Fault Refusal := step (s.withFetchWord 32 w)

/-- `STATUS` and the results after that step. -/
def results (s : State) (w : Nat) : Option (Byte × Word × Word × Word) :=
  (nextOf (issue s w)).map fun t => (t.status, t.res0, t.res1, t.res2)

/-- A field of the state after that step. -/
def after {α : Type} (s : State) (w : Nat) (f : State → α) : Option α := (nextOf (issue s w)).map f

def bytesAt (a : Nat) : List Byte → Memory
  | [] => []
  | b :: bs => Memory.cons a b (bytesAt (a + 1) bs)

def withArgs (s : State) (a0 a1 a2 a3 : Word) : State := { s with arg0 := a0, arg1 := a1, arg2 := a2, arg3 := a3 }

/-- The payload AA BB at 0x2000, as in V59. -/
def payloadState : State := { State.reset with mem := bytesAt 0x2000 [0xAA, 0xBB] }

/-- The operands of V59. -/
def encState : State := withArgs payloadState 0x2000 2 0x3000 6

/-- The frame of V74 at 0x3000. -/
def decState : State := withArgs { State.reset with mem := bytesAt 0x3000 [0x02, 0x01, 0xAA, 0xBB, 0xBA, 0x9D] } 0x3000 6 0 0

/-- The frame of V77, one payload byte changed. -/
def badState : State := { decState with mem := bytesAt 0x3000 [0x02, 0x01, 0xAA, 0xBC, 0xBA, 0x9D] }

/-- Group C: address 1, two ports, route 2 to port 0 (Connected, its counter at the top), route 3 to port 1 (Ready). -/
def routeState : State :=
  { State.reset with
    deviceAddr := 1
    numPorts := 2
    route := (State.reset.route.set 2 0).set 3 1
    link := (State.reset.link.set 0 { Link.atReset 0 with state := .connected, txPackets := 0xFFFFFFFF }).set 1
      { Link.atReset 1 with state := .ready } }

/-- Every byte of 0x3000 to 0x300F has side effects. -/
def deviceState : State := { encState with cfg := { Config.default with devices := [{ base := 0x3000, size := 16 }] } }

def pending (s : State) (a : HostAction) : State := s.setHost [a]

/-- The operands of V59, the byte 0x2001 of the payload written after those of `ks`. -/
def writtenAfter (ks : List (Fin 4)) : State :=
  encState.setSection { operands := [0, 1, 2, 3], written := [(0x2001, ks)], reads := [], overwritten := false }

def writtenState : State := writtenAfter [0]

/-- The frame of V74 decoded, and a byte of it overwritten since, as in step 6 of P2. -/
def overwrittenState : State := decState.setSection
    { operands := [], written := [], reads := [(0x3000, 6)], overwritten := true }

/-! ### Ill-formed words are refused (R82, R84) -/

/-- V1 to V6, and the ends of the unassigned ranges of R84. -/
theorem test_unknown_opcodes_are_ill_formed :
    ([0x00000000, 0x00000004, 0x0000000F, 0x00000013, 0x0000001F, 0x00000027, 0x0000002F, 0x00000033, 0x000000FF] : List Word).any
      wellFormed = false := by decide +kernel

/-- V7 to V13c, and one such word for each other row of R83. -/
theorem test_nonzero_reserved_bits_are_ill_formed :
    ([0x01004101, 0x00024102, 0x00000103, 0x00100010, 0x01010211, 0x80000012, 0x01000020, 0x01000021] ++
      [0x00010022, 0x00010023, 0x00800024, 0x00000125, 0x00010026, 0x00020030, 0x00080031, 0x01000032] : List Word).any
      wellFormed = false := by decide +kernel

/-- The decoder refuses them too. -/
theorem test_decoder_rejects_ill_formed_words :
    ([0x00000000, 0x00000004, 0x00000013, 0x00000027, 0x00000033, 0x000000FF, 0x01004101, 0x00024102, 0x00000103] ++
      [0x00100010, 0x01010211, 0x80000012, 0x00010022, 0x00000125, 0x00020030, 0x00080031, 0x01000032] : List Nat).all
      (fun w => (decodeTableWord 32 w).isNone) = true := by decide +kernel

/-- The legal forms beside them (section 2.1). -/
theorem test_legal_forms_are_well_formed :
    ([0x00004101, 0x00014102, 0x00000003, 0x00000010, 0x00010211, 0x00000022, 0x00000025, 0x00000031, 0x00000032] : List Word).all
      wellFormed = true := by decide +kernel

/-- The decoder names what is wrong. -/
theorem test_decoder_rejects_by_name :
    decode 0x00000104 = .error (.unknownOpcode 0x04) ∧ decode 0x01004101 = .error (.reservedBits 0x01) := by decide

/-! ### Decoding: every constructor, its word written out from R83 -/

/-- F3, F2, F1, OPC bit by bit. -/
theorem test_decode_codec_crc_frame :
    decode 0b00000000_00000000_01000001_00000001 = .ok (.charEnc 0x41) ∧
    decode 0b00000000_00000001_01000001_00000010 = .ok (.charDec 0x41 1) ∧
    decode 0b00000000_00000000_00000000_00000011 = .ok .crc16 ∧
    decode 0b00000000_00000000_00000000_00010000 = .ok .frameSize ∧
    decode 0b00000000_00000001_00000010_00010001 = .ok (.frameEnc 0x02 0x01) ∧
    decode 0b00000000_00000000_00000000_00010010 = .ok .frameDec := by decide

theorem test_decode_router :
    decode 0b00000000_00001100_00000001_00100000 = .ok (.rtrInit 0x01 12) ∧
    decode 0b00000000_00000001_00000111_00100001 = .ok (.rtrAddRoute 0x07 1) ∧
    decode 0b00000000_00000000_00001111_00100010 = .ok (.rtrOpenCh 15) ∧
    decode 0b00000000_00000000_11111111_00100011 = .ok (.rtrRoute 0xFF) ∧
    decode 0b00000000_00000000_00000111_00100100 = .ok (.rtrReadRoute 7) ∧
    decode 0b00000000_00000000_00000000_00100101 = .ok .rtrReadCfg ∧
    decode 0b00000000_00000000_00010000_00100110 = .ok (.vcRead 16) := by decide

theorem test_decode_link :
    decode 0b00000000_00000001_00000000_00110000 = .ok (.linkInit 0 1) ∧
    decode 0b00000000_00000111_00000000_00110001 = .ok (.linkSetState 0 7) ∧
    decode 0b00000000_00001010_00000011_00110010 = .ok (.linkRead 3 10) := by decide

theorem test_encode_is_the_other_way :
    encode (.charDec 0x41 1) = 0x00014102 ∧ encode (.frameEnc 0x02 0x01) = 0x00010211 ∧
    encode (.linkSetState 0 3) = 0x00030031 ∧ encode (.rtrInit 0x09 4) = 0x00040920 := by decide

/-! ### One step per instruction -/

/-- V20, V25. -/
theorem test_char_enc :
    results State.reset 0x00007F01 = some (0x00, 0x7F, 1, 0) ∧ results State.reset 0x00000201 = some (0x00, 2, 1, 0) := by
  decide +kernel

/-- V14 to V17, V21: the markers and a data byte. -/
theorem test_char_dec :
    results State.reset 0x00000002 = some (0x10, 0, 0, 0) ∧ results State.reset 0x00010102 = some (0x11, 0, 0, 0) ∧
    results State.reset 0x00010202 = some (0x12, 0, 0, 0) ∧ results State.reset 0x00000302 = some (0x13, 0, 0, 0) ∧
    results State.reset 0x00018002 = some (0x00, 0x80, 0, 0) := by decide +kernel

/-- V24: parity before the marker. -/
theorem test_char_dec_parity_first : results State.reset 0x00010302 = some (0x07, 0, 0, 0) := by decide +kernel

/-- The parity table of section 2.2, row by row, column 0 leftmost. -/
theorem test_parity_table :
    (List.range 16).map (fun h => (List.range 16).map fun l => (parity (BitVec.ofNat 8 (16 * h + l))).toNat) =
      let a := [0, 1, 1, 0, 1, 0, 0, 1, 1, 0, 0, 1, 0, 1, 1, 0]
      let b := [1, 0, 0, 1, 0, 1, 1, 0, 0, 1, 1, 0, 1, 0, 0, 1]
      [a, b, b, a, b, a, a, b, b, a, a, b, a, b, b, a] := by decide +kernel

/-- V48, V51. -/
theorem test_crc16 :
    results (withArgs { State.reset with mem := bytesAt 0x1000 [0x31, 0x32, 0x33, 0x34, 0x35, 0x36, 0x37, 0x38, 0x39] } 0x1000 9 0 0) 3 =
      some (0x00, 0x29B1, 0, 0) ∧
    results (withArgs State.reset 0 5 0 0) 3 = some (0x00, 0xFFFF, 0, 0) := by decide +kernel

/-- V52: the range passes 2^32. -/
theorem test_crc16_stuck : faultOf (issue (withArgs State.reset 0xFFFFFFF0 0x20 0 0) 3) = some .stuck := by decide +kernel

/-- V31 to V44: both presets. -/
theorem test_crc_values :
    crc16 0xFFFF [0x02, 0x01, 0xAA, 0xBB] = 0xBA9D ∧ crc16 0x0000 [0x02, 0x01, 0xAA, 0xBB] = 0x3E5D ∧
    crc16 0xFFFF [0x05, 0x7F, 0x04, 0x05, 0x06] = 0xE733 ∧ crc16 0xFFFF [0xFF, 0xFF] = 0x0000 := by decide +kernel

/-- V56, V57. -/
theorem test_frame_size :
    results (withArgs State.reset 0 65535 0 0) 0x10 = some (0x00, 0x00010003, 0, 0) ∧
    results (withArgs State.reset 0 65536 0 0) 0x10 = some (0x01, 0, 0, 0) := by decide +kernel

/-- V59: the bytes of the frame, big-endian CRC, and the first byte not written. -/
theorem test_frame_enc :
    results encState 0x00010211 = some (0x00, 6, 0, 0) ∧
    after encState 0x00010211 (fun t => t.mem.readBytes 0x3000 7) =
      some [0x02, 0x01, 0xAA, 0xBB, 0xBA, 0x9D, 0x00] := by decide +kernel

/-- V61, V69, V72, V73. -/
theorem test_frame_enc_stops :
    results (withArgs payloadState 0x2000 2 0x3000 5) 0x00010211 = some (0x02, 0, 0, 0) ∧
    results (withArgs payloadState 0x2000 2 0 0) 0x00010211 = some (0x01, 0, 0, 0) ∧
    refusalOf (issue (withArgs payloadState 0x2000 2 0x1FFF 6) 0x00010211) = some .overlap ∧
    faultOf (issue (withArgs payloadState 0x2000 2 0xFFFE 6) 0x00010211) = some .stuck := by decide +kernel

/-- V74, V77. -/
theorem test_frame_dec :
    results decState 0x12 = some (0x00, 0x00000102, 0x3002, 2) ∧ results badState 0x12 = some (0x04, 0, 0, 0) := by
  decide +kernel

/-- V82, V84, V86: the order of the checks. -/
theorem test_frame_dec_checks :
    results { decState with arg1 := 3 } 0x12 = some (0x03, 0, 0, 0) ∧
    results { decState with arg1 := 65540 } 0x12 = some (0x03, 0, 0, 0) ∧
    results { decState with arg0 := 0, arg1 := 2 } 0x12 = some (0x01, 0, 0, 0) := by decide +kernel

/-- V95, V125: clamped ports, cleared routes, counters and states; credits of channels back. -/
theorem test_rtr_init :
    after routeState 0x000C0120 (fun t => (t.numPorts, t.route[2], t.link[0].state, t.link[0].txPackets)) =
      some (8, 0xFF, .uninitialized, 0) := by decide +kernel

/-- V145: configuration and credits stay. -/
theorem test_rtr_init_keeps_configuration :
    after { State.reset with link := State.reset.link.set 0 { Link.atReset 0 with bitRate := 100000000, rxCredits := 8 } }
      0x00040920 (fun t => (t.link[0].bitRate, t.link[0].rxCredits)) = some (0x05F5E100, 8) := by decide +kernel

/-- V102, V103: stored below `num_ports`, ignored at it. -/
theorem test_rtr_add_route :
    after routeState 0x00010721 (fun t => (t.status, t.route[7])) = some (0x00, 1) ∧
    after routeState 0x00020721 (fun t => (t.status, t.route[7])) = some (0x00, 0xFF) := by decide +kernel

/-- V118, V119. -/
theorem test_rtr_open_ch :
    after State.reset 0x00000F22 (fun t => (t.res0, t.vc[15].active, t.vc[14].active)) = some (1, true, false) ∧
    results State.reset 0x00001022 = some (0x00, 0, 0, 0) := by decide +kernel

/-- V127: the counter wraps. -/
theorem test_rtr_route :
    after routeState 0x00000223 (fun t => (t.status, t.res0, t.link[0].txPackets)) = some (0x00, 0, 0) := by
  decide +kernel

/-- V107, V110, V115, V90. -/
theorem test_rtr_route_misses :
    results routeState 0x00000123 = some (0x20, 0, 0, 0) ∧ results routeState 0x00000323 = some (0x05, 0, 0, 0) ∧
    results routeState 0x00000823 = some (0x05, 0, 0, 0) ∧ results State.reset 0x00000023 = some (0x20, 0, 0, 0) := by
  decide +kernel

/-- V93, V108. -/
theorem test_rtr_read_route :
    results State.reset 0x00000024 = some (0x00, 0xFF, 0, 0) ∧ results State.reset 0x00000824 = some (0x01, 0, 0, 0) := by
  decide +kernel

/-- V92 from reset; the fields of the routed state. -/
theorem test_rtr_read_cfg :
    results State.reset 0x00000025 = some (0x00, 0, 0, 0) ∧ results routeState 0x00000025 = some (0x00, 1, 2, 0) := by
  decide +kernel

/-- V94, V123. -/
theorem test_vc_read :
    results State.reset 0x00000F26 = some (0x00, 15, 0, 64) ∧ results State.reset 0x00001026 = some (0x01, 0, 0, 0) := by
  decide +kernel

/-- V135, V138: the fields; the largest credit count on the last port. -/
theorem test_link_init :
    after (withArgs State.reset 100000000 850 8 0) 0x00010030 (fun t =>
      (t.link[0].bitRate, t.link[0].disconnectTimeout, t.link[0].maxRxCredits, t.link[0].crcEnable, t.link[0].rxCredits)) =
      some (100000000, 850, 8, 1, 8) ∧
    after (withArgs State.reset 1 2 0xFFFF 0) 0x00000730 (fun t => t.link[7].rxCredits) = some 0xFFFF := by
  decide +kernel

/-- V137, V139. -/
theorem test_link_init_errors :
    results (withArgs State.reset 1 2 0x10000 0) 0x00000030 = some (0x01, 0, 0, 0) ∧
    results State.reset 0x00000830 = some (0x01, 0, 0, 0) := by decide +kernel

/-- V143, V113. -/
theorem test_link_set_state :
    after State.reset 0x00040031 (fun t => t.link[0].state) = some .error ∧
    after State.reset 0x00030131 (fun t => t.link[1].state) = some .connected := by decide +kernel

/-- V140, V142. -/
theorem test_link_set_state_errors :
    results State.reset 0x00050031 = some (0x01, 0, 0, 0) ∧ results State.reset 0x00030831 = some (0x01, 0, 0, 0) := by
  decide +kernel

/-- V124, V131: a counter, the port id. -/
theorem test_link_read :
    results routeState 0x00010032 = some (0x00, 0xFFFFFFFF, 0, 0) ∧
    results State.reset 0x000A0332 = some (0x00, 3, 0, 0) := by decide +kernel

/-- V132, V133. -/
theorem test_link_read_errors :
    results State.reset 0x00000832 = some (0x01, 0, 0, 0) ∧ results State.reset 0x000B0032 = some (0x01, 0, 0, 0) := by
  decide +kernel

/-- V7: an illegal word (R256). -/
theorem test_illegal_command : results routeState 0x01004101 = some (0x3F, 0, 0, 0) := by decide +kernel

/-! ### The host's side -/

/-- R21, R25: STATUS reads zero-extended, a reserved offset reads 0. -/
theorem test_register_reads :
    (nextOf (step (pending { State.reset with status := 0x3F } (.regRead 0x04 .word)))).map (·.hostReads) = some [0x3F] ∧
    (nextOf (step (pending { State.reset with res2 := 7 } (.regRead 0x24 .word)))).map (·.hostReads) = some [0] := by
  decide +kernel

/-- R21, R24: an operand register is stored, a result register is not. -/
theorem test_register_writes :
    (nextOf (step (pending State.reset (.regWrite 0x14 .word 9)))).map (·.arg3) = some 9 ∧
    (nextOf (step (pending State.reset (.regWrite 0x18 .word 9)))).map (·.res0) = some 0 := by decide +kernel

/-- R286: the host wrote the payload between its operands and `CMD`; what is refused is a command that reads it. -/
theorem test_critical_section_before_the_command :
    refusalOf (step (pending writtenState (cmdWrite Config.default 0x00000003))) = some .criticalSection ∧
    refusalOf (step (pending writtenState (cmdWrite Config.default 0x00010211))) = some .criticalSection ∧
    (nextOf (step (pending writtenState (cmdWrite Config.default 0x00000010)))).map (·.res0) = some 6 := by
  decide +kernel

/-- R286, R23: a write before the first operand that the command names is outside its section. -/
theorem test_critical_section_starts_at_a_named_operand :
    (nextOf (step (pending (writtenAfter [3]) (cmdWrite Config.default 0x00000003)))).map (·.status) = some 0x00 ∧
    refusalOf (step (pending (writtenAfter [3]) (cmdWrite Config.default 0x00010211))) = some .criticalSection ∧
    (nextOf (step (pending encState (.memWrite 0x2001 7)))).map (·.hostSection) = some .closed := by decide +kernel

/-- R286: the host overwrote what the last command read; a result read is refused. P2, step 7: the next command runs. -/
theorem test_critical_section_after_the_command :
    refusalOf (step (pending overwrittenState (.regRead 0x1C .word))) = some .criticalSection ∧
    (nextOf (step (pending overwrittenState (.regRead 0x08 .word)))).map (·.hostReads) = some [0x3000] ∧
    (nextOf (step (pending overwrittenState (cmdWrite Config.default 0x00000012)))).map
      (fun t => (t.status, t.hostSection.overwritten)) = some (0x00, false) := by decide +kernel

/-- The canonical form: a written 0x00 leaves no cell. -/
theorem test_memory_is_canonical :
    (Memory.write (bytesAt 0x2000 [0xAA, 0xBB]) 0x2000 0x00) = [(0x2001, 0xBB)] ∧
    Memory.wf (bytesAt 0x2000 [0xAA, 0x00, 0xBB]) = true ∧ Memory.wf [(2, 1), (1, 1)] = false ∧
    Memory.wf [(1, 0)] = false ∧ State.reset.mem.wf = true := by decide

/-- R63 on the platform of section 2: the ends of the region, the empty range, a range past the end. -/
theorem test_admit :
    admitted Config.default 0x1000 0xF000 = true ∧ admitted Config.default 0xFFFF 1 = true ∧
    admitted Config.default 0xFFFF 2 = false ∧ admitted Config.default 0x0FFF 1 = false ∧
    admitted Config.default 0xFFFFFFFF 0 = true := by decide

/-- R152: sharing an address; ranges that only touch do not. -/
theorem test_overlaps :
    overlaps 0x2000 2 0x1FFF 6 = true ∧ overlaps 0x2000 2 0x2002 6 = false ∧ overlaps 0x2006 2 0x2000 6 = false ∧
    overlaps 0x2000 0 0x2000 4 = false := by decide

/-! ### Witnesses: what the hypotheses of each statement ask for, met together -/

theorem witness_EncodeAfterDecodeGivesTheWord : decode 0x00010211 = .ok (.frameEnc 2 1) := by decide

theorem witness_MaskAndMatchDecideTheCommand :
    (⟨"CHAR_DEC", 0x00000002, 0xFFFE00FF⟩ : OpRow) ∈ opTable ∧
    OpRow.accepts ⟨"CHAR_DEC", 0x00000002, 0xFFFE00FF⟩ 0x0001FF02 = true ∧ wellFormed 0x00024102 = false := by
  refine ⟨by decide, by decide +kernel, by decide +kernel⟩

theorem witness_OpcodeRowsDoNotOverlap :
    (⟨"CRC16", 0x00000003, 0xFFFFFFFF⟩ : OpRow) ∈ opTable ∧ (⟨"VC_READ", 0x00000026, 0xFFFF00FF⟩ : OpRow) ∈ opTable ∧
    (⟨"CRC16", 0x00000003, 0xFFFFFFFF⟩ : OpRow) ≠ ⟨"VC_READ", 0x00000026, 0xFFFF00FF⟩ := by decide

theorem witness_StepRunsTheDecodedCommand :
    (pending State.reset (cmdWrite Config.default 0x00010211)).host = [cmdWrite State.reset.cfg 0x00010211] ∧
    decode 0x00010211 = .ok (.frameEnc 2 1) ∧ State.reset.hostSection.written = [] ∧
    (∃ t, exec (.frameEnc 2 1) ((writtenState.setHost []).setCmd 0x00010211) = .next t) ∧
    (nextOf (exec (.frameEnc 2 1) ((writtenState.setHost []).setCmd 0x00010211))).map
      (fun t => writtenState.hostSection.breaks (argsRead (.frameEnc 2 1)) (readsOf (.frameEnc 2 1) writtenState t)) = some true ∧
    (nextOf (exec (.frameEnc 2 1) ((encState.setHost []).setCmd 0x00010211))).map
      (fun t => encState.hostSection.breaks (argsRead (.frameEnc 2 1)) (readsOf (.frameEnc 2 1) encState t)) = some false ∧
    faultOf (exec .crc16 (withArgs State.reset 0xFFFFFFF0 0x20 0 0)) = some .stuck ∧
    refusalOf (exec (.frameEnc 2 1) (withArgs payloadState 0x2000 2 0x1FFF 6)) = some .overlap :=
  ⟨rfl, by decide, rfl, next_of_isSome (by decide +kernel), by decide +kernel, by decide +kernel, by decide +kernel,
    by decide +kernel⟩

theorem witness_IllegalWordOnlyReports :
    (pending State.reset (cmdWrite Config.default 0x00024102)).host = [cmdWrite State.reset.cfg 0x00024102] ∧
    ∀ i, decode 0x00024102 ≠ .ok i := by
  refine ⟨rfl, fun i h => ?_⟩
  rw [show decode 0x00024102 = .error (.reservedBits 0x02) by decide] at h
  cases h

theorem witness_IdleBlockKeepsItsState : State.reset.host = [] := rfl

/-- The first and the last reserved offset, and `RES2` below them. -/
theorem witness_RegisterReadReturnsTheMap : ∀ off ∈ ([0x00, 0x20, 0x24, 0x3C] : List (BitVec 6)),
    off.extractLsb' 0 2 = 0 ∧ State.reset.hostSection.overwritten = false ∧
    (pending State.reset (.regRead (State.reset.cfg.base + off.setWidth 32) .word)).host =
      [.regRead (State.reset.cfg.base + off.setWidth 32) .word] := by decide

theorem witness_RegisterWriteFollowsTheMap : ∀ off ∈ ([0x04, 0x08, 0x0C, 0x10, 0x14, 0x18, 0x3C] : List (BitVec 6)),
    off.extractLsb' 0 2 = 0 ∧
    (pending State.reset (.regWrite (State.reset.cfg.base + off.setWidth 32) .word 9)).host =
      [.regWrite (State.reset.cfg.base + off.setWidth 32) .word 9] := by decide

theorem witness_StatusReadsTheResultCode :
    ((∃ t, startCommand 0x00000832 State.reset = .next t) ∧ decode 0x00000832 = .ok (.linkRead 8 0)) ∧
    ((∃ t, startCommand 0x00024102 State.reset = .next t) ∧ ∀ i, decode 0x00024102 ≠ .ok i) ∧
    after State.reset 0x00000832 (fun t => decide (t.status ≠ State.reset.status)) = some true :=
  ⟨⟨next_of_isSome (by decide +kernel), by decide⟩,
    ⟨next_of_isSome (by decide +kernel), witness_IllegalWordOnlyReports.2⟩, by decide +kernel⟩

/-- A narrow access, a misaligned one, the first address outside the window, another agent. -/
theorem witness_BreachesOfHostDutiesAreRefused :
    (AccessSize.half ≠ .word ∧ (0x01 : BitVec 6).extractLsb' 0 2 ≠ 0 ∧ 64 ≤ (64 : Word).toNat) ∧
    (pending State.reset (.regWrite (State.reset.cfg.base + (0x01 : BitVec 6).setWidth 32) .word 1)).host =
      [.regWrite (State.reset.cfg.base + (0x01 : BitVec 6).setWidth 32) .word 1] ∧
    (pending State.reset (.regRead (State.reset.cfg.base + 64) .word)).host =
      [.regRead (State.reset.cfg.base + 64) .word] ∧
    (pending State.reset .foreignAccess).host = [.foreignAccess] := by decide

/-- The first and last byte of the memory, the bytes beside them, and a byte with side effects. -/
theorem witness_HostByteAccessesReadAndWriteMemory : State.reset.mem.wf = true ∧
    State.reset.accessible (0x1000 : Word).toNat 1 = true ∧ State.reset.accessible (0xFFFF : Word).toNat 1 = true ∧
    (deviceState.mem.wf = true ∧ admitted deviceState.cfg (0x300F : Word).toNat 1 = true ∧
      touchesDevice deviceState.cfg (0x300F : Word).toNat 1 = true) ∧
    admitted State.reset.cfg (0x0FFF : Word).toNat 1 = false ∧ admitted State.reset.cfg (0x10000 : Word).toNat 1 = false ∧
    (pending State.reset (.memWrite 0x1000 7)).host = [.memWrite 0x1000 7] ∧
    (pending State.reset (.memRead 0x10000)).host = [.memRead 0x10000] := by decide

theorem witness_CommandsGiveOnlyTheirCodes : ∃ t, exec .frameDec badState = .next t := next_of_isSome (by decide +kernel)

theorem witness_ReservedCodesAreNeverWritten : ∃ t, runWord 0x00024102 State.reset = .next t :=
  next_of_isSome (by decide +kernel)

theorem witness_ErrorsWriteOnlyStatusAndResults :
    ∃ t, runWord 0x00000012 badState = .next t ∧ Code.checksumMismatch.isError = true ∧
      t.status = Code.checksumMismatch.toByte := by
  obtain ⟨t, ht⟩ := Option.isSome_iff_exists.1
    (show (nextOf (runWord 0x00000012 badState)).isSome = true by decide +kernel)
  have hs : (nextOf (runWord 0x00000012 badState)).map (·.status) = some 0x04 := by decide +kernel
  rw [ht] at hs
  exact ⟨t, of_nextOf ht, rfl, by simpa [Code.toByte] using hs⟩

theorem witness_OperandRegistersAreTheHosts :
    (∃ t, exec .crc16 encState = .next t) ∧ (2 : Fin 4) ∉ argsRead .crc16 ∧ (3 : Fin 4) ∉ argsRead (.linkInit 0 0) ∧
    ((nextOf (step (pending State.reset (.regWrite 0x14 .word 9)))).map fun t =>
      decide (t.arg3 ≠ State.reset.arg3)) = some true :=
  ⟨next_of_isSome (by decide +kernel), by decide, by decide, by decide +kernel⟩

/-- Each command that writes something changes it here. -/
theorem witness_EachStateHasItsWriters :
    ((nextOf (exec (.rtrInit 9 1) routeState)).map fun t =>
      decide (t.deviceAddr ≠ routeState.deviceAddr ∧ t.numPorts ≠ routeState.numPorts)) = some true ∧
    ((nextOf (exec (.rtrAddRoute 7 1) routeState)).map fun t => decide (t.route ≠ routeState.route)) = some true ∧
    ((nextOf (exec (.rtrOpenCh 15) routeState)).map fun t => decide (t.vc ≠ routeState.vc)) = some true ∧
    ((nextOf (exec (.linkSetState 1 3) routeState)).map fun t =>
      decide (t.link[1].state ≠ routeState.link[1].state)) = some true ∧
    ((nextOf (exec (.rtrRoute 2) routeState)).map fun t =>
      decide (t.link[0].txPackets ≠ routeState.link[0].txPackets)) = some true ∧
    ((nextOf (exec (.linkInit 0 1) encState)).map fun t =>
      decide (t.link[0].bitRate ≠ encState.link[0].bitRate)) = some true ∧
    ((nextOf (exec (.rtrInit 9 1) (State.reset.setLink 2 { Link.atReset 2 with errors := 5 }))).map fun t =>
      decide (t.link[2].errors ≠ 5)) = some true ∧
    ((nextOf (exec (.frameEnc 2 1) encState)).map fun t => decide (t.mem ≠ encState.mem)) = some true := by
  decide +kernel

theorem witness_CodecAndFramesIgnoreInternalState : ∃ d p : Byte, Instr.frameEnc 2 1 = .frameEnc d p := ⟨2, 1, rfl⟩

/-- A wrong parity bit, each control value, and the first and last data byte with the right one. -/
theorem witness_CharDecChecksParityThenClassifies :
    (1 : BitVec 1) ≠ parity 3 ∧ 0 = parity 0 ∧ 1 = parity 1 ∧ 1 = parity 2 ∧ 0 = parity 3 ∧
    (1 = parity 4 ∧ 4 ≤ (4 : Byte).toNat) ∧ (0 = parity 0xFF ∧ 4 ≤ (0xFF : Byte).toNat) := by decide

theorem witness_CharacterRoundTrip :
    (∃ t, exec (.charEnc 4) State.reset = .next t) ∧ 4 ≤ (4 : Byte).toNat ∧ (3 : Byte).toNat < 4 :=
  ⟨⟨_, rfl⟩, by decide, by decide⟩

theorem witness_Crc16CommandGivesTheCrc :
    State.reset.arg0 = 0 ∧
    (encState.arg0 ≠ 0 ∧ encState.accessible encState.arg0.toNat encState.arg1.toNat = true) ∧
    ((withArgs State.reset 0xFFFFFFF0 0x20 0 0).arg0 ≠ 0 ∧
      admitted Config.default (0xFFFFFFF0 : Word).toNat (0x20 : Word).toNat = false) := by decide

theorem witness_CrcDetectsOneChangedByte : (0xBB : Byte) ≠ 0xBC := by decide

theorem witness_FrameSizeIsPayloadPlusFour :
    (withArgs State.reset 0 65535 0 0).arg1.toNat < 65536 ∧ 65536 ≤ (withArgs State.reset 0 65536 0 0).arg1.toNat := by
  decide

/-- The hypotheses of `FrameEncWritesTheFrame`. -/
def frameEncHypotheses (s : State) : Bool :=
  s.mem.wf && s.arg2 != 0 && decide (s.arg1.toNat < 65536) && (s.arg0 != 0 || s.arg1 == 0) &&
    decide (s.arg1.toNat + 4 ≤ s.arg3.toNat) &&
    !overlaps s.arg0.toNat s.arg1.toNat s.arg2.toNat (s.arg1.toNat + 4) &&
    s.accessible s.arg2.toNat (s.arg1.toNat + 4) && (s.arg1 == 0 || s.accessible s.arg0.toNat s.arg1.toNat)

/-- V59, and an empty payload at NULL with the exact capacity (V62); the frame at the end of the memory. -/
theorem witness_FrameEncWritesTheFrame :
    frameEncHypotheses encState = true ∧ frameEncHypotheses (withArgs payloadState 0 0 0x3000 4) = true ∧
    frameEncHypotheses (withArgs payloadState 0x2000 2 0xFFFA 6) = true := by decide +kernel

/-- V68, V70, V71, V61. -/
theorem witness_FrameEncReportsTheFirstFailingCheck :
    (withArgs payloadState 0x2000 2 0 6).arg2 = 0 ∧
    ((0x3000 : Word) ≠ 0 ∧ 65536 ≤ (0x10000 : Word).toNat) ∧
    ((0x3000 : Word) ≠ 0 ∧ (2 : Word).toNat < 65536 ∧ (0 : Word) = 0 ∧ (2 : Word) ≠ 0) ∧
    ((0x3000 : Word) ≠ 0 ∧ (2 : Word).toNat < 65536 ∧ ((0x2000 : Word) = 0 → (2 : Word) = 0) ∧
      (5 : Word).toNat < (2 : Word).toNat + 4) := by decide

/-- V72: they share 0x2000. -/
theorem witness_OverlappingFrameEncIsRefused :
    let s := withArgs payloadState 0x2000 2 0x1FFF 6
    s.arg2 ≠ 0 ∧ s.arg0 ≠ 0 ∧ s.arg1.toNat < 65536 ∧ s.arg1.toNat + 4 ≤ s.arg3.toNat ∧
    s.arg0.toNat ≤ 0x2000 ∧ 0x2000 < s.arg0.toNat + s.arg1.toNat ∧
    s.arg2.toNat ≤ 0x2000 ∧ 0x2000 < s.arg2.toNat + (s.arg1.toNat + 4) := by decide

/-- V52, V87, V73, and a payload that is not there. -/
theorem witness_UnadmittedFootprintIsStuck :
    ((0xFFFFFFF0 : Word) ≠ 0 ∧ admitted Config.default (0xFFFFFFF0 : Word).toNat (0x20 : Word).toNat = false) ∧
    ((0xFFFC : Word) ≠ 0 ∧ 4 ≤ (6 : Word).toNat ∧ (6 : Word).toNat ≤ 65539 ∧
      admitted Config.default (0xFFFC : Word).toNat (6 : Word).toNat = false) ∧
    (overlaps (0x2000 : Word).toNat (2 : Word).toNat (0xFFFE : Word).toNat ((2 : Word).toNat + 4) = false ∧
      admitted Config.default (0xFFFE : Word).toNat ((2 : Word).toNat + 4) = false) ∧
    (overlaps (0x0FFF : Word).toNat (2 : Word).toNat (0x3000 : Word).toNat ((2 : Word).toNat + 4) = false ∧
      (2 : Word) ≠ 0 ∧ admitted Config.default (0x0FFF : Word).toNat (2 : Word).toNat = false) := by decide

theorem witness_DeviceFootprintIsRefused :
    let s := deviceState
    (admitted s.cfg 0x3000 6 = true ∧ touchesDevice s.cfg 0x3000 6 = true) ∧
    (s.arg2 ≠ 0 ∧ s.arg1.toNat < 65536 ∧ s.arg0 ≠ 0 ∧ s.arg1.toNat + 4 ≤ s.arg3.toNat ∧
      overlaps s.arg0.toNat s.arg1.toNat s.arg2.toNat (s.arg1.toNat + 4) = false ∧
      admitted s.cfg s.arg2.toNat (s.arg1.toNat + 4) = true ∧ admitted s.cfg s.arg0.toNat s.arg1.toNat = true ∧
      touchesDevice s.cfg s.arg2.toNat (s.arg1.toNat + 4) = true) := by decide

/-- V85; V82 and V84; V87; V77; V74. -/
theorem witness_FrameDecChecksAndReturnsTheView :
    (withArgs State.reset 0 6 0 0).arg0 = 0 ∧
    (decState.arg0 ≠ 0 ∧ (3 : Word).toNat < 4 ∧ 65539 < (65540 : Word).toNat) ∧
    (4 ≤ (6 : Word).toNat ∧ admitted Config.default (0xFFFC : Word).toNat (6 : Word).toNat = false) ∧
    (badState.arg0 ≠ 0 ∧ 4 ≤ badState.arg1.toNat ∧ badState.arg1.toNat ≤ 65539 ∧
      badState.accessible badState.arg0.toNat badState.arg1.toNat = true ∧ badState.crcOf 0x3000 4 = 0xCA7A ∧
      badState.mem.read 0x3004 ++ badState.mem.read 0x3005 = (0xBA9D : Half)) ∧
    (decState.accessible decState.arg0.toNat decState.arg1.toNat = true ∧ decState.crcOf 0x3000 4 = 0xBA9D ∧
      decState.mem.read 0x3004 ++ decState.mem.read 0x3005 = (0xBA9D : Half)) := by decide +kernel

theorem witness_DecodingAnEncodedFrameGivesItBack :
    encState.mem.wf = true ∧ ∃ t, exec (.frameEnc 2 1) encState = .next t ∧ t.status = Code.ok.toByte := by
  refine ⟨by decide, ?_⟩
  obtain ⟨t, ht⟩ := Option.isSome_iff_exists.1
    (show (nextOf (exec (.frameEnc 2 1) encState)).isSome = true by decide +kernel)
  have hs : (nextOf (exec (.frameEnc 2 1) encState)).map (·.status) = some 0x00 := by decide +kernel
  rw [ht] at hs
  exact ⟨t, of_nextOf ht, by simpa [Code.toByte] using hs⟩

/-- The first and the last byte of the frame. -/
theorem witness_OneCorruptedByteIsDetected :
    decState.mem.wf = true ∧ (∃ t, exec .frameDec decState = .next t ∧ t.status = Code.ok.toByte) ∧
    (decState.arg0.toNat ≤ 0x3000 ∧ 0x3005 < decState.arg0.toNat + decState.arg1.toNat) ∧
    0x03 ≠ decState.mem.read 0x3000 ∧ 0x9C ≠ decState.mem.read 0x3005 := by
  refine ⟨by decide, ?_, by decide, by decide, by decide⟩
  obtain ⟨t, ht⟩ := Option.isSome_iff_exists.1
    (show (nextOf (exec .frameDec decState)).isSome = true by decide +kernel)
  have hs : (nextOf (exec .frameDec decState)).map (·.status) = some 0x00 := by decide +kernel
  rw [ht] at hs
  exact ⟨t, of_nextOf ht, by simpa [Code.toByte] using hs⟩

theorem witness_AdmitIsDecidedByteByByte :
    platformOk Config.default = true ∧
    platformOk { Config.default with regions := [⟨0, 16⟩, ⟨17, 4⟩, ⟨0xFFFFFFF0, 16⟩] } = true := by decide

/-- The last destination and the last port; the first ones out of range. -/
theorem witness_RtrAddRouteStoresOrIgnores :
    ((7 : Byte).toNat = (7 : Fin 8) ∧ (1 : Byte).toNat < routeState.numPorts.toNat) ∧
    8 ≤ (8 : Byte).toNat ∧ routeState.numPorts.toNat ≤ (2 : Byte).toNat := by decide

theorem witness_RtrOpenChActivatesTheChannel : (15 : Byte).toNat = (15 : Fin 16) ∧ 16 ≤ (16 : Byte).toNat := by decide

/-- Local; outside the table; an empty entry; a port that is not connected; a port that is. -/
theorem witness_RtrRouteChoosesThePort :
    routeState.PortsOk ∧ (1 : Byte) = routeState.deviceAddr ∧
    ((8 : Byte) ≠ routeState.deviceAddr ∧ 8 ≤ (8 : Byte).toNat) ∧
    ((7 : Byte) ≠ routeState.deviceAddr ∧ (7 : Byte).toNat = (7 : Fin 8) ∧
      routeState.numPorts.toNat ≤ (routeState.route[(7 : Fin 8)]).toNat) ∧
    ((3 : Byte) ≠ routeState.deviceAddr ∧ (routeState.route[(3 : Fin 8)]).toNat = (1 : Fin 8) ∧
      (routeState.route[(3 : Fin 8)]).toNat < routeState.numPorts.toNat ∧
      (routeState.link[(1 : Fin 8)]).state ≠ .connected) ∧
    ((2 : Byte) ≠ routeState.deviceAddr ∧ (routeState.route[(2 : Fin 8)]).toNat = (0 : Fin 8) ∧
      (routeState.route[(2 : Fin 8)]).toNat < routeState.numPorts.toNat ∧
      (routeState.link[(0 : Fin 8)]).state = .connected) := by
  refine ⟨?_, ?_⟩
  · show 2 ≤ 8
    decide
  · decide +kernel

theorem witness_RtrReadRouteReturnsTheEntry : (7 : Byte).toNat = (7 : Fin 8) ∧ 8 ≤ (8 : Byte).toNat := by decide

theorem witness_VcReadReturnsTheChannel :
    (15 : Byte).toNat = (15 : Fin 16) ∧ 16 ≤ (16 : Byte).toNat ∧ ∃ t, exec (.rtrInit 9 4) routeState = .next t :=
  ⟨by decide, by decide, _, rfl⟩

/-- Two ports, the route of the last destination to the last port. -/
theorem witness_BootOrderMakesARouteWork :
    (7 : Byte) ≠ 1 ∧ (7 : Byte).toNat < 8 ∧ (1 : Byte).toNat < min (2 : Byte).toNat 8 ∧
    ∃ s1 s2 s3, exec (.rtrInit 1 2) State.reset = .next s1 ∧ exec (.linkSetState 1 3) s1 = .next s2 ∧
      exec (.rtrAddRoute 7 1) s2 = .next s3 := ⟨by decide, by decide, by decide, _, _, _, rfl, rfl, rfl⟩

theorem witness_LinkInitBindsTheConfiguration :
    ((7 : Byte).toNat = (7 : Fin 8) ∧ (withArgs State.reset 1 2 0xFFFF 0).arg2.toNat < 65536) ∧
    8 ≤ (8 : Byte).toNat ∧ 65536 ≤ (withArgs State.reset 1 2 0x10000 0).arg2.toNat := by decide

theorem witness_LinkSetStateSetsAnyState :
    ((7 : Byte).toNat = (7 : Fin 8) ∧ (4 : BitVec 3) = LinkState.error.bits) ∧ 8 ≤ (8 : Byte).toNat ∧
    4 < (5 : BitVec 3).toNat := by decide

theorem witness_LinkReadReturnsTheField :
    ((7 : Byte).toNat = (7 : Fin 8) ∧ zext32 (State.reset.link[(7 : Fin 8)]).portId = (7 : Word)) ∧
    8 ≤ (8 : Byte).toNat ∧ 11 ≤ (11 : Byte).toNat := by decide

theorem witness_ResetSetsEveryRegister : (pending routeState .reset).host = [.reset] := rfl

theorem witness_InitCommandsReachTheResetState :
    routeState.arg0 = 0 ∧ routeState.arg1 = 0 ∧ routeState.arg2 = 0 ∧
    ∃ s0 s1 s2 s3 s4 s5 s6 s7 t, exec (.rtrInit 0 0) routeState = .next s0 ∧ exec (.linkInit 0 0) s0 = .next s1 ∧
      exec (.linkInit 1 0) s1 = .next s2 ∧ exec (.linkInit 2 0) s2 = .next s3 ∧ exec (.linkInit 3 0) s3 = .next s4 ∧
      exec (.linkInit 4 0) s4 = .next s5 ∧ exec (.linkInit 5 0) s5 = .next s6 ∧ exec (.linkInit 6 0) s6 = .next s7 ∧
      exec (.linkInit 7 0) s7 = .next t :=
  ⟨rfl, rfl, rfl, _, _, _, _, _, _, _, _, _, rfl, rfl, rfl, rfl, rfl, rfl, rfl, rfl, rfl⟩

/-- A frame being written, another command, a `FRAME_ENC` without room (V61) and a stuck one (V73), when reset comes. -/
theorem witness_ResetAbandonsTheRunningCommand :
    encState.mem.wf = true ∧ (pending encState (.resetDuring 0x00010211)).host = [.resetDuring 0x00010211] ∧
    (∀ r, startCommand 0x00010211 (encState.setHost []) ≠ .refused r) ∧ decode 0x00010211 = .ok (.frameEnc 2 1) ∧
    (∀ d p, decode 0x00000003 ≠ .ok (.frameEnc d p)) ∧
    (nextOf (startCommand 0x00010211 ((withArgs payloadState 0x2000 2 0x3000 5).setHost []))).map
      (fun u => decide (u.status ≠ Code.ok.toByte)) = some true ∧
    faultOf (startCommand 0x00010211 ((withArgs payloadState 0x2000 2 0xFFFE 6).setHost [])) = some .stuck := by
  refine ⟨by decide, rfl, fun r h => ?_, by decide, fun d p h => ?_, by decide +kernel, by decide +kernel⟩
  · obtain ⟨t, ht⟩ := next_of_isSome
      (show (nextOf (startCommand 0x00010211 (encState.setHost []))).isSome = true by decide +kernel)
    rw [ht] at h
    cases h
  · rw [show decode 0x00000003 = .ok .crc16 by decide] at h
    cases h

theorem witness_StepKeepsTheInvariant : routeState.Inv ∧ ∃ t, step (pending routeState .reset) = .next t := by
  refine ⟨⟨rfl, show 2 ≤ 8 by decide, by unfold State.RoutesOk; decide, ⟨.ok, by decide, rfl⟩,
    by unfold State.LinksOk; decide +kernel, by unfold State.ChannelsOk; decide +kernel⟩, _, rfl⟩

theorem witness_StepKeepsTheParameters : ∃ t, step (pending State.reset .reset) = .next t := ⟨_, rfl⟩

/-- Each action of the section in turn, at the first and the last byte of a range and beside it. -/
theorem witness_CriticalSectionIsRecorded :
    (nextOf (step (pending encState (.regWrite 0x08 .word 9)))).isSome = true ∧ encState.hostSection.operands = [] ∧
    (nextOf (step (pending writtenState (.regWrite 0x14 .word 9)))).isSome = true ∧
    writtenState.hostSection.operands ≠ [] ∧ 0 ∈ writtenState.hostSection.operands ∧ (nextOf (step (pending writtenState (.memWrite 0x2000 7)))).isSome = true ∧
    (inRanges [(0x3000, 6)] 0x3000 = true ∧ inRanges [(0x3000, 6)] 0x3005 = true ∧
      inRanges [(0x3000, 6)] 0x3006 = false ∧ inRanges [(0x3000, 6)] 0x2FFF = false) ∧
    (nextOf (step (pending (encState.setSection { HostSection.closed with operands := [1] })
      (cmdWrite Config.default 0x00000003)))).isSome = true ∧
    (nextOf (step (pending badState (cmdWrite Config.default 0x00000012)))).isSome = true ∧
    (nextOf (step (pending encState (cmdWrite Config.default 0x00010211)))).isSome = true ∧
    (nextOf (step (pending State.reset (cmdWrite Config.default 0x00000025)))).isSome = true ∧
    (nextOf (step (pending encState (.regWrite 0x3C .word 9)))).isSome = true ∧
    (nextOf (step (pending encState (.memRead 0x2000)))).isSome = true ∧
    (nextOf (step (pending writtenState .reset))).isSome = true := by decide +kernel

/-- The last byte of the payload; the frame of V74 with its first byte written; the overwritten view. -/
theorem witness_HostWriteOfAReadBufferIsRefused :
    ((0x2001, [0]) ∈ writtenState.hostSection.written ∧ writtenState.arg0.toNat ≤ 0x2001 ∧
      0x2001 < writtenState.arg0.toNat + writtenState.arg1.toNat ∧ writtenState.arg0 ≠ 0 ∧
      writtenState.accessible writtenState.arg0.toNat writtenState.arg1.toNat = true) ∧
    frameEncHypotheses writtenState = true ∧
    (decState.arg0.toNat ≤ 0x3000 ∧ 0x3000 < decState.arg0.toNat + decState.arg1.toNat ∧ 4 ≤ decState.arg1.toNat ∧
      decState.arg1.toNat ≤ 65539 ∧ decState.accessible decState.arg0.toNat decState.arg1.toNat = true) ∧
    overwrittenState.hostSection.overwritten = true := by decide +kernel

end Sys2Proof.Tests
end

section
/-! PROOFS. The registers the host sees (10_state.md R21 to R25): what one step can do, said once; what a command leaves of
the host's side; and that a command commutes with a write of an operand register its rule does not name. -/

namespace Sys2Proof.Machine

/-! ### What one step can do -/

/-- The offset of `ARGk` in the register window (10_state.md R21). -/
def argOffset (k : Fin 4) : BitVec 6 := BitVec.ofNat 6 (0x08 + 4 * k)

/-- An access to the register window that goes on is an aligned 32-bit access inside it (R21, R67). -/
theorem registerAccess_next {addr : Word} {size : AccessSize} {s t : State}
    {k : BitVec 6 → Host.Outcome State Fault Refusal} (h : registerAccess addr size s k = .next t) :
    ∃ off : BitVec 6, addr = s.cfg.base + off.setWidth 32 ∧ size = .word ∧ off.extractLsb' 0 2 = 0 ∧ k off = .next t := by
  unfold registerAccess windowOffset at h
  split at h
  · cases h
  rename_i off hoff
  split at hoff
  · rename_i hlt
    cases hoff
    split at h
    · rename_i hreg
      simp only [isRegisterAccess, Bool.and_eq_true, beq_iff_eq] at hreg
      refine ⟨_, ?_, hreg.1, hreg.2, h⟩
      have hd : ((addr - s.cfg.base).setWidth 6).setWidth 32 = addr - s.cfg.base := by
        apply BitVec.eq_of_toNat_eq
        simp only [BitVec.toNat_setWidth]
        omega
      rw [hd, BitVec.add_comm, BitVec.sub_add_cancel]
    · cases h
  · cases hoff

/-- A host write of a register that ends starts a command, stores an operand, or is ignored (R21 to R24). -/
theorem writeRegister_next {off : BitVec 6} {w : Word} {s t : State} (h : writeRegister off w s = .next t) :
    off = 0x00 ∧ startCommand w s = .next t ∨ (∃ k, off = argOffset k ∧ t = s.hostSetArg k w) ∨
      off ≠ 0x00 ∧ (∀ k, off ≠ argOffset k) ∧ t = s := by
  unfold writeRegister at h
  split at h
  · exact .inl ⟨by assumption, h⟩
  split at h
  · cases h; exact .inr (.inl ⟨0, by assumption, rfl⟩)
  split at h
  · cases h; exact .inr (.inl ⟨1, by assumption, rfl⟩)
  split at h
  · cases h; exact .inr (.inl ⟨2, by assumption, rfl⟩)
  split at h
  · cases h; exact .inr (.inl ⟨3, by assumption, rfl⟩)
  · cases h
    exact .inr (.inr ⟨by assumption, fun k => by fin_cases k <;> assumption, rfl⟩)

/-- A host read of a register that ends is a read of no overwritten result, and is only observed (R21, R286). -/
theorem hostRegRead_next {off : BitVec 6} {s t : State} (h : hostRegRead off s = .next t) :
    (isResult off && s.hostSection.overwritten) = false ∧ t = s.observe (s.readRegister off) := by
  unfold hostRegRead at h
  split at h
  · cases h
  · rename_i hr
    cases h
    exact ⟨by simpa using hr, rfl⟩

/-- The host's access to a byte goes on when the byte is accessible (R63, R66). -/
theorem hostByteAccess_next {addr : Word} {s t : State} {k : Host.Outcome State Fault Refusal}
    (h : hostByteAccess addr s k = .next t) : s.accessible addr.toNat 1 = true ∧ k = .next t := by
  unfold hostByteAccess at h
  split at h
  · rename_i ha
    split at h
    · cases h
    · rename_i hd
      exact ⟨by simp [State.accessible, ha, hd], h⟩
  · cases h

/-- A reset during a command that is not refused is a reset, after the bytes of a write footprint were drawn or not (R281). -/
theorem resetDuringCommand_next {w : Word} {s t : State} (h : resetDuringCommand w s = .next t) :
    (∀ r, startCommand w s ≠ .refused r) ∧
      (t = s.afterReset ∨ ∃ u a n, startCommand w s = .next u ∧ writeFootprint w s u = some (a, n) ∧
        t = (s.smearRange a n).afterReset) := by
  unfold resetDuringCommand at h
  split at h
  · cases h
  · rename_i hc
    cases h
    exact ⟨by simp [hc], .inl rfl⟩
  · rename_i u hc
    refine ⟨by simp [hc], ?_⟩
    split at h
    · rename_i a n hf
      cases h
      exact .inr ⟨u, a, n, hc, hf, rfl⟩
    · cases h
      exact .inl rfl

/-- What a step that answers a next state has done: `StepEffect s t` lists the actions, each with the state it leaves. -/
inductive StepEffect (s : State) : State → Prop where
  | idle (hs : s.host = []) : StepEffect s s
  | command (rest : List HostAction) (w : Word) (t : State) (hs : s.host = cmdWrite s.cfg w :: rest)
      (ht : startCommand w (s.setHost rest) = .next t) : StepEffect s t
  | operand (rest : List HostAction) (k : Fin 4) (w : Word)
      (hs : s.host = .regWrite (s.cfg.base + (argOffset k).setWidth 32) .word w :: rest) :
      StepEffect s ((s.setHost rest).hostSetArg k w)
  | ignoredWrite (rest : List HostAction) (off : BitVec 6) (w : Word)
      (hs : s.host = .regWrite (s.cfg.base + off.setWidth 32) .word w :: rest) (hal : off.extractLsb' 0 2 = 0)
      (hcmd : off ≠ 0x00) (harg : ∀ k, off ≠ argOffset k) : StepEffect s (s.setHost rest)
  | registerRead (rest : List HostAction) (off : BitVec 6)
      (hs : s.host = .regRead (s.cfg.base + off.setWidth 32) .word :: rest) (hal : off.extractLsb' 0 2 = 0)
      (hres : (isResult off && s.hostSection.overwritten) = false) :
      StepEffect s ((s.setHost rest).observe (s.readRegister off))
  | memoryWrite (rest : List HostAction) (a : Word) (v : Byte) (hs : s.host = .memWrite a v :: rest)
      (ha : s.accessible a.toNat 1 = true) :
      StepEffect s (((s.setHost rest).setMem (s.mem.write a.toNat v)).setSection (s.hostSection.noteWrite a.toNat))
  | memoryRead (rest : List HostAction) (a : Word) (hs : s.host = .memRead a :: rest)
      (ha : s.accessible a.toNat 1 = true) : StepEffect s ((s.setHost rest).observe (zext32 (s.mem.read a.toNat)))
  | reset (rest : List HostAction) (hs : s.host = .reset :: rest) : StepEffect s (s.setHost rest).afterReset
  | resetDuring (rest : List HostAction) (w : Word) (t : State) (hs : s.host = .resetDuring w :: rest)
      (ht : resetDuringCommand w (s.setHost rest) = .next t) : StepEffect s t

/-- A register write performed: the three cases of `writeRegister_next` as effects of the step. -/
theorem stepEffect_of_regWrite {s t : State} {addr : Word} {size : AccessSize} {w : Word} {rest : List HostAction}
    (hs : s.host = .regWrite addr size w :: rest) (h : perform (.regWrite addr size w) (s.setHost rest) = .next t) :
    StepEffect s t := by
  obtain ⟨off, rfl, rfl, hal, hw⟩ := registerAccess_next h
  obtain ⟨rfl, hc⟩ | ⟨k, rfl, rfl⟩ | ⟨hcmd, harg, rfl⟩ := writeRegister_next hw
  · exact .command rest w t (by simpa [cmdWrite] using hs) hc
  · exact .operand rest k w hs
  · exact .ignoredWrite rest off w hs hal hcmd harg

/-- Say once what a step can do: one that answers a next state has performed the oldest action, or there was none. -/
theorem step_next {s t : State} (h : step s = .next t) : StepEffect s t := by
  cases hs : s.host with
  | nil =>
    rw [step_idle hs] at h
    cases h
    exact .idle hs
  | cons a rest =>
    rw [step_pending hs] at h
    cases a with
    | regWrite addr size w => exact stepEffect_of_regWrite hs h
    | regRead addr size =>
      obtain ⟨off, rfl, rfl, hal, hr⟩ := registerAccess_next h
      obtain ⟨hres, rfl⟩ := hostRegRead_next hr
      exact .registerRead rest off hs hal hres
    | memWrite a v =>
      obtain ⟨ha, hk⟩ := hostByteAccess_next h
      cases hk
      exact .memoryWrite rest a v hs ha
    | memRead a =>
      obtain ⟨ha, hk⟩ := hostByteAccess_next h
      cases hk
      exact .memoryRead rest a hs ha
    | reset =>
      cases h
      exact .reset rest hs
    | resetDuring w => exact .resetDuring rest w t hs h
    | foreignAccess => cases h

/-! ### `STATUS` (R25) -/

@[simp] theorem readRegister_status (s : State) : s.readRegister 0x04 = zext32 s.status := rfl

/-- Storing an operand writes no `STATUS`. -/
@[simp] theorem hostSetArg_status (s : State) (k : Fin 4) (w : Word) : (s.hostSetArg k w).status = s.status := by
  simp [State.hostSetArg]

/-- A zero-extended byte has the byte below. -/
theorem zext32_low (b : Byte) : (zext32 b).extractLsb' 0 8 = b := by
  ext i hi
  simp [show i < 32 by omega, BitVec.getLsbD_eq_getElem hi]

/-- A zero-extended byte has zeros above. -/
theorem zext32_high (b : Byte) : (zext32 b).extractLsb' 8 24 = 0 := by
  ext i hi
  simp

/-- After a started command `STATUS` holds a code of that command's own, or the code of an illegal word. -/
theorem startCommand_status {w : Word} {s t : State} (h : startCommand w s = .next t) :
    (∃ i, decode w = .ok i ∧ ∃ c ∈ codesOf i, t.status = c.toByte) ∨
      (∀ i, decode w ≠ .ok i) ∧ t.status = Code.illegalCommand.toByte := by
  obtain ⟨u, hu, -, rfl⟩ := startCommand_next h
  obtain ⟨i, hi, c, hc, r0, r1, r2, v, -, -, rfl⟩ | ⟨hill, rfl⟩ := runWord_next hu
  · exact .inl ⟨i, hi, c, hc, rfl⟩
  · exact .inr ⟨hill, rfl⟩

/-- Only a command or a reset changes `STATUS`. -/
theorem step_status {s t : State} (h : step s = .next t) (hne : t.status ≠ s.status) : ∃ rest,
    (∃ w, s.host = cmdWrite s.cfg w :: rest) ∨ s.host = .reset :: rest ∨ ∃ w, s.host = .resetDuring w :: rest := by
  cases step_next h with
  | command rest w _ hs => exact ⟨rest, .inl ⟨w, hs⟩⟩
  | reset rest hs => exact ⟨rest, .inr (.inl hs)⟩
  | resetDuring rest w _ hs => exact ⟨rest, .inr (.inr ⟨w, hs⟩)⟩
  | idle | operand | ignoredWrite | registerRead | memoryWrite | memoryRead => simp at hne

/-- Settles O11: a command ends with one `finish` (`exec_next`), no other step but a reset writes `STATUS` (`step_next`), and
the register is the code zero-extended. -/
theorem statusReadsTheResultCode : Obligations.StatusReadsTheResultCode := by
  unfold Obligations.StatusReadsTheResultCode
  refine ⟨fun w s t h => ?_, fun s t h hne => step_status h hne, fun s => ?_, rfl⟩
  · simp only [readRegister_status]
    obtain ⟨i, hi, c, hc, hst⟩ | ⟨hill, hst⟩ := startCommand_status h
    · refine ⟨fun j hj => ?_, fun hill => absurd hi (hill i)⟩
      obtain rfl : i = j := Except.ok.inj (hi.symm.trans hj)
      exact ⟨c, hc, by rw [hst]⟩
    · exact ⟨fun j hj => absurd hj (hill j), fun _ => by rw [hst]⟩
  · exact ⟨zext32_low s.status, zext32_high s.status⟩

/-! ### What a command leaves of the host's side (R23) -/

/-- The write of a command leaves the host's side. -/
theorem CommandEffect.sameHostSide {i : Instr} {s u : State} (h : CommandEffect i s u) : SameHostSide s u := by
  cases h <;> exact ⟨rfl, rfl, rfl, rfl, rfl, rfl, rfl, rfl, rfl, rfl⟩

/-- So does the command. -/
theorem Ends.sameHostSide {i : Instr} {s t : State} (h : Ends i s t) : SameHostSide s t := by
  obtain ⟨c, -, r0, r1, r2, u, hu, -, rfl⟩ := h
  exact hu.sameHostSide

/-- So does a command word, illegal ones among them. -/
theorem runWord_sameHostSide {w : Word} {s t : State} (h : runWord w s = .next t) : SameHostSide s t := by
  obtain ⟨i, -, hi⟩ | ⟨-, rfl⟩ := runWord_next h
  · exact hi.sameHostSide
  · exact (finish_only s .illegalCommand 0 0 0).2.1

/-- A started command leaves the operand registers. -/
theorem startCommand_args {w : Word} {s t : State} (h : startCommand w s = .next t) :
    t.arg0 = s.arg0 ∧ t.arg1 = s.arg1 ∧ t.arg2 = s.arg2 ∧ t.arg3 = s.arg3 := by
  obtain ⟨u, hu, -, rfl⟩ := startCommand_next h
  obtain ⟨-, h0, h1, h2, h3, -⟩ := runWord_sameHostSide hu
  exact ⟨h0, h1, h2, h3⟩

/-- Only a 32-bit register write of the host, or a reset, changes an operand register. -/
theorem step_args {s t : State} (h : step s = .next t)
    (hne : t.arg0 ≠ s.arg0 ∨ t.arg1 ≠ s.arg1 ∨ t.arg2 ≠ s.arg2 ∨ t.arg3 ≠ s.arg3) : ∃ rest,
    (∃ addr w, s.host = .regWrite addr .word w :: rest) ∨ s.host = .reset :: rest ∨
      ∃ w, s.host = .resetDuring w :: rest := by
  cases step_next h with
  | operand rest k w hs => exact ⟨rest, .inl ⟨_, w, hs⟩⟩
  | reset rest hs => exact ⟨rest, .inr (.inl hs)⟩
  | resetDuring rest w _ hs => exact ⟨rest, .inr (.inr ⟨w, hs⟩)⟩
  | command rest w t hs ht =>
    obtain ⟨h0, h1, h2, h3⟩ := startCommand_args ht
    simp [h0, h1, h2, h3] at hne
  | idle | ignoredWrite | registerRead | memoryWrite | memoryRead => simp at hne

/-! ### A write of an operand register commutes with the updates of a command -/

section setArg
variable (s : State) (k : Fin 4) (w : Word)

@[simp] theorem setArg_finish (c : Code) (r0 r1 r2 : Word) :
    (s.setArg k w).finish c r0 r1 r2 = (s.finish c r0 r1 r2).setArg k w := by fin_cases k <;> rfl

@[simp] theorem setArg_setRoute (d : Fin 8) (o : Byte) :
    (s.setArg k w).setRoute d o = (s.setRoute d o).setArg k w := by fin_cases k <;> rfl

@[simp] theorem setArg_openChannel (c : Fin 16) :
    (s.setArg k w).openChannel c = (s.openChannel c).setArg k w := by fin_cases k <;> rfl

@[simp] theorem setArg_setLink (p : Fin 8) (l : Link) :
    (s.setArg k w).setLink p l = (s.setLink p l).setArg k w := by fin_cases k <;> rfl

@[simp] theorem setArg_initRouter (a n : Byte) :
    (s.setArg k w).initRouter a n = (s.initRouter a n).setArg k w := by fin_cases k <;> rfl

@[simp] theorem setArg_crcOf (a n : Nat) : (s.setArg k w).crcOf a n = s.crcOf a n := by simp [State.crcOf]

@[simp] theorem setArg_trailer (a n : Nat) : (s.setArg k w).trailer a n = s.trailer a n := by simp [State.trailer]

end setArg

section mapNext
variable (f : State → State)

@[simp] theorem mapNext_next (t : State) : mapNext f (.next t) = .next (f t) := rfl

/-- The footprint check reads only the parameters, so it commutes with a change of anything else. -/
theorem withFootprint_mapNext {s s' : State} (hc : s'.cfg = s.cfg) (ranges : List (Nat × Nat))
    (o : Host.Outcome State Fault Refusal) :
    s'.withFootprint ranges (mapNext f o) = mapNext f (s.withFootprint ranges o) := by
  unfold State.withFootprint
  rw [hc]
  split
  · split <;> rfl
  · rfl

end mapNext

/-! ### A command does not see an operand register its rule does not name (R23) -/

section unnamed
variable (s : State) (k : Fin 4) (w : Word)

theorem execCharDec_setArg (b : Byte) (p : BitVec 1) :
    execCharDec b p (s.setArg k w) = mapNext (·.setArg k w) (execCharDec b p s) := by
  unfold execCharDec
  rw [State.setArg_cfg]
  split
  · simp
  · split <;> simp

theorem execCrc16_setArg (h0 : k ≠ 0) (h1 : k ≠ 1) :
    execCrc16 (s.setArg k w) = mapNext (·.setArg k w) (execCrc16 s) := by
  simp only [execCrc16, State.setArg_arg0, State.setArg_arg1, if_neg h0, if_neg h1]
  split
  · simp
  · rw [← withFootprint_mapNext _ (s.setArg_cfg k w)]
    simp

theorem execFrameSize_setArg (h1 : k ≠ 1) :
    execFrameSize (s.setArg k w) = mapNext (·.setArg k w) (execFrameSize s) := by
  simp only [execFrameSize, State.setArg_arg1, if_neg h1]
  split <;> simp

theorem execFrameDec_setArg (h0 : k ≠ 0) (h1 : k ≠ 1) :
    execFrameDec (s.setArg k w) = mapNext (·.setArg k w) (execFrameDec s) := by
  simp only [execFrameDec, State.setArg_arg0, State.setArg_arg1, if_neg h0, if_neg h1]
  split
  · simp
  split
  · simp
  split
  · simp
  · rw [← withFootprint_mapNext _ (s.setArg_cfg k w), apply_ite (mapNext _)]
    simp

theorem execRtrAddRoute_setArg (e o : Byte) :
    execRtrAddRoute e o (s.setArg k w) = mapNext (·.setArg k w) (execRtrAddRoute e o s) := by
  unfold execRtrAddRoute
  rw [State.setArg_numPorts]
  split
  · simp
  · split <;> simp

theorem execRtrOpenCh_setArg (c : Byte) :
    execRtrOpenCh c (s.setArg k w) = mapNext (·.setArg k w) (execRtrOpenCh c s) := by
  unfold execRtrOpenCh
  split <;> simp

theorem routeVia_setArg (p : Byte) : routeVia p (s.setArg k w) = mapNext (·.setArg k w) (routeVia p s) := by
  unfold routeVia
  split
  · simp
  · rw [State.setArg_link]
    split <;> simp

theorem execRtrRoute_setArg (t : Byte) :
    execRtrRoute t (s.setArg k w) = mapNext (·.setArg k w) (execRtrRoute t s) := by
  unfold execRtrRoute
  rw [State.setArg_deviceAddr, State.setArg_numPorts, State.setArg_route]
  split
  · simp
  split
  · simp
  split
  · simp
  · exact routeVia_setArg s k w _

theorem execRtrReadRoute_setArg (e : Byte) :
    execRtrReadRoute e (s.setArg k w) = mapNext (·.setArg k w) (execRtrReadRoute e s) := by
  unfold execRtrReadRoute
  split <;> simp

theorem execVcRead_setArg (c : Byte) : execVcRead c (s.setArg k w) = mapNext (·.setArg k w) (execVcRead c s) := by
  unfold execVcRead
  split <;> simp

theorem execLinkInit_setArg (h0 : k ≠ 0) (h1 : k ≠ 1) (h2 : k ≠ 2) (q : Byte) (crc : BitVec 1) :
    execLinkInit q crc (s.setArg k w) = mapNext (·.setArg k w) (execLinkInit q crc s) := by
  simp only [execLinkInit, State.setArg_arg0, State.setArg_arg1, State.setArg_arg2, if_neg h0, if_neg h1,
    if_neg h2]
  split
  · simp
  · split <;> simp

theorem execLinkSetState_setArg (q : Byte) (st : BitVec 3) :
    execLinkSetState q st (s.setArg k w) = mapNext (·.setArg k w) (execLinkSetState q st s) := by
  unfold execLinkSetState
  split
  · simp
  · split <;> simp

theorem execLinkRead_setArg (q l : Byte) :
    execLinkRead q l (s.setArg k w) = mapNext (·.setArg k w) (execLinkRead q l s) := by
  unfold execLinkRead
  rw [State.setArg_link]
  split
  · simp
  · split <;> simp

end unnamed

/-- A command commutes with the host's write of a register its rule does not name. -/
theorem exec_setArg {i : Instr} {k : Fin 4} (hk : k ∉ argsRead i) (s : State) (w : Word) :
    exec i (s.setArg k w) = mapNext (·.setArg k w) (exec i s) := by
  cases i with
  | charEnc d => simp [exec, execCharEnc]
  | charDec b p => exact execCharDec_setArg s k w b p
  | crc16 =>
    simp only [argsRead, List.mem_cons, List.not_mem_nil, or_false, not_or] at hk
    exact execCrc16_setArg s k w hk.1 hk.2
  | frameSize =>
    simp only [argsRead, List.mem_singleton] at hk
    exact execFrameSize_setArg s k w hk
  | frameEnc t p => exact absurd ((by decide : ∀ j : Fin 4, j ∈ [0, 1, 2, 3]) k) hk
  | frameDec =>
    simp only [argsRead, List.mem_cons, List.not_mem_nil, or_false, not_or] at hk
    exact execFrameDec_setArg s k w hk.1 hk.2
  | rtrInit a n => simp [exec, execRtrInit]
  | rtrAddRoute e o => exact execRtrAddRoute_setArg s k w e o
  | rtrOpenCh c => exact execRtrOpenCh_setArg s k w c
  | rtrRoute t => exact execRtrRoute_setArg s k w t
  | rtrReadRoute e => exact execRtrReadRoute_setArg s k w e
  | rtrReadCfg => simp [exec, execRtrReadCfg]
  | vcRead c => exact execVcRead_setArg s k w c
  | linkInit q crc =>
    simp only [argsRead, List.mem_cons, List.not_mem_nil, or_false, not_or] at hk
    obtain ⟨h0, h1, h2⟩ := hk
    exact execLinkInit_setArg s k w h0 h1 h2 q crc
  | linkSetState q st => exact execLinkSetState_setArg s k w q st
  | linkRead q l => exact execLinkRead_setArg s k w q l

/-- Settles O18: a command keeps the host's side, a step changes an operand register only by the host's write or a reset
(`step_next`), and a command commutes with the write of a register it does not name (`exec_setArg`). -/
theorem operandRegistersAreTheHosts : Obligations.OperandRegistersAreTheHosts := by
  unfold Obligations.OperandRegistersAreTheHosts
  exact ⟨fun i s t h => (exec_next h).sameHostSide, fun s t h hne => step_args h hne,
    fun i s k w hk => exec_setArg hk s w⟩

end Sys2Proof.Machine
end

section
/-! PROOFS. The footprint of the three commands that access memory (20_memory.md R64): past its argument checks each of them
is its footprint check, so a range that is not admitted leaves it stuck. -/

namespace Sys2Proof.Machine

/-! ### Past the argument checks, a command is its footprint check -/

/-- With an address, `CRC16` is its footprint check and the CRC of the range (41_crc.md R133). -/
theorem execCrc16_go {s : State} (h0 : s.arg0 ≠ 0) :
    execCrc16 s = s.withFootprint [(s.arg0.toNat, s.arg1.toNat)]
      (done .ok (zext32 (s.crcOf s.arg0.toNat s.arg1.toNat)) 0 0 s) :=
  if_neg h0

/-- Past its argument checks, `FRAME_DEC` is its footprint check, then the comparison of the checksum (42_frame_codec.md
R155). -/
theorem execFrameDec_withFootprint {s : State} (h0 : s.arg0 ≠ 0) (h4 : 4 ≤ s.arg1.toNat) (h5 : s.arg1.toNat ≤ 65539) :
    execFrameDec s = s.withFootprint [(s.arg0.toNat, s.arg1.toNat)]
      (if s.crcOf s.arg0.toNat (s.arg1.toNat - 2) ≠ s.trailer s.arg0.toNat s.arg1.toNat then
        raise .checksumMismatch s
       else
        done .ok (frameHeaderWord (s.mem.read (s.arg0.toNat + 1)) (s.mem.read s.arg0.toNat)) (s.arg0 + 2)
          (s.arg1 - 4) s) := by
  have hmin : ¬s.arg1.toNat < minFrame := Nat.not_lt.2 h4
  have hmax : ¬maxFrame < s.arg1.toNat := Nat.not_lt.2 h5
  unfold execFrameDec
  rw [if_neg (show ¬s.arg0 = nullAddr from h0), if_neg hmin, if_neg hmax]

/-- The ranges of the footprint of `FRAME_ENC`: the destination, and the payload when there is one (R152). -/
theorem mem_frameEncFootprint {pa ba n : Nat} {r : Nat × Nat} :
    r ∈ frameEncFootprint pa ba n ↔ r = (ba, n + 4) ∨ n ≠ 0 ∧ r = (pa, n) := by
  unfold frameEncFootprint
  rw [frameSize_eq, List.mem_cons]
  split <;> simp [*]

/-! ### A range that is not admitted leaves the command stuck (R64) -/

theorem execCrc16_stuck {s : State} (h0 : s.arg0 ≠ 0) (ha : admitted s.cfg s.arg0.toNat s.arg1.toNat = false) :
    execCrc16 s = .fault .stuck := by
  rw [execCrc16_go h0]
  exact withFootprint_stuck (List.mem_singleton_self _) ha

theorem execFrameDec_stuck {s : State} (h0 : s.arg0 ≠ 0) (h4 : 4 ≤ s.arg1.toNat) (h5 : s.arg1.toNat ≤ 65539)
    (ha : admitted s.cfg s.arg0.toNat s.arg1.toNat = false) : execFrameDec s = .fault .stuck := by
  rw [execFrameDec_withFootprint h0 h4 h5]
  exact withFootprint_stuck (List.mem_singleton_self _) ha

theorem execFrameEnc_stuck (t i : Byte) {s : State} (h2 : s.arg2 ≠ 0) (h1 : s.arg1.toNat < 65536)
    (h0 : s.arg0 = 0 → s.arg1 = 0) (hc : s.arg1.toNat + 4 ≤ s.arg3.toNat)
    (ho : overlaps s.arg0.toNat s.arg1.toNat s.arg2.toNat (s.arg1.toNat + 4) = false)
    (ha : admitted s.cfg s.arg2.toNat (s.arg1.toNat + 4) = false ∨
      s.arg1 ≠ 0 ∧ admitted s.cfg s.arg0.toNat s.arg1.toNat = false) :
    execFrameEnc t i s = .fault .stuck := by
  rw [execFrameEnc_go t i h2 h1 h0 hc ho]
  obtain hdest | ⟨hn, hpayload⟩ := ha
  · exact withFootprint_stuck (mem_frameEncFootprint.2 (.inl rfl)) hdest
  · have hlen : s.arg1.toNat ≠ 0 := BitVec.toNat_ne_iff_ne.2 hn
    exact withFootprint_stuck (mem_frameEncFootprint.2 (.inr ⟨hlen, rfl⟩)) hpayload

/-- Settles O36: past its argument checks each of the three commands is its footprint check, which a range that is not
admitted fails (`withFootprint_stuck`). -/
theorem unadmittedFootprintIsStuck : Obligations.UnadmittedFootprintIsStuck := by
  unfold Obligations.UnadmittedFootprintIsStuck
  exact fun s => ⟨execCrc16_stuck, execFrameDec_stuck, fun d p => execFrameEnc_stuck d p⟩

end Sys2Proof.Machine
end

section
/-! PROOFS. The opcode map (30_encoding.md R82, R83): its rows are the opcodes' rows, a row accepts a word exactly when
the decoder takes the word for a command of that opcode, and a word without a row is reported as illegal. -/

namespace Sys2Proof

/-! ### The row of an opcode -/

/-- The mnemonic of an opcode's commands. -/
def Opcode.mnemonic (o : Opcode) : String := (operandsOf 0 0 o).mnemonic

/-- The must-be-zero bits of `F1` (R83). -/
def Opcode.unusedF1 : Opcode → Byte
  | .crc16 | .frameSize | .frameDec | .rtrReadCfg => 0xFF
  | _ => 0x00

/-- The must-be-zero bits of `F2` (R83). -/
def Opcode.unusedF2 : Opcode → Byte
  | .frameEnc | .rtrInit | .rtrAddRoute | .linkRead => 0x00
  | .charDec | .linkInit => 0xFE
  | .linkSetState => 0xF8
  | _ => 0xFF

/-- The row of R83: `match` is the opcode's number alone, `mask` the opcode field and the must-be-zero bits (R82). -/
def Opcode.row (o : Opcode) : OpRow :=
  ⟨o.mnemonic, assemble o.byte 0 0 0, assemble 0xFF o.unusedF1 o.unusedF2 0xFF⟩

/-- The opcode map is the opcodes' rows, in order. -/
theorem opTable_eq : opTable = Opcode.all.map Opcode.row := by decide +kernel

theorem Opcode.mem_all (o : Opcode) : o ∈ Opcode.all := by cases o <;> decide

theorem mem_opTable {r : OpRow} : r ∈ opTable ↔ ∃ o : Opcode, o.row = r := by
  simp [opTable_eq, Opcode.mem_all]

/-- No two opcodes share a mnemonic. -/
theorem Opcode.mnemonic_injective : Function.Injective Opcode.mnemonic := fun o o' =>
  List.inj_on_of_nodup_map (f := Opcode.mnemonic) (l := Opcode.all) (by decide +kernel) o.mem_all o'.mem_all

/-- The operands do not change which row a command belongs to. -/
theorem mnemonic_operandsOf (f1 f2 : Byte) (o : Opcode) : (operandsOf f1 f2 o).mnemonic = o.mnemonic := by
  cases o <;> rfl

/-! ### A row accepts what the decoder takes for its command -/

/-- A mask of the whole byte keeps it. -/
theorem and_wholeByte (b : Byte) : b &&& 255#8 = b := BitVec.and_allOnes

/-- The mask of all bits but one field bit gives zero exactly when the seven bits above are zero. -/
theorem and_above1_eq_zero : ∀ b : Byte, b &&& 254#8 = 0#8 ↔ b.extractLsb' 1 7 = 0#7 := by decide

/-- The mask of all bits but three field bits gives zero exactly when the five bits above are zero. -/
theorem and_above3_eq_zero : ∀ b : Byte, b &&& 248#8 = 0#8 ↔ b.extractLsb' 3 5 = 0#5 := by decide

/-- The decoder's must-be-zero check is the mask of the row. -/
theorem mustBeZero_iff (f1 f2 f3 : Byte) (o : Opcode) :
    mustBeZero f1 f2 f3 o = true ↔ f1 &&& o.unusedF1 = 0 ∧ f2 &&& o.unusedF2 = 0 ∧ f3 = 0 := by
  cases o <;> simp [mustBeZero, Opcode.unusedF1, Opcode.unusedF2, and_wholeByte, and_above1_eq_zero,
    and_above3_eq_zero, and_assoc]

/-- A row accepts a word with its opcode and zero must-be-zero bits, and no other. -/
theorem Opcode.row_accepts (o : Opcode) (w : Word) :
    o.row.accepts w = true ↔
      fieldOpc w = o.byte ∧ mustBeZero (fieldF1 w) (fieldF2 w) (fieldF3 w) o = true := by
  have fields := accepts_assemble o.mnemonic (assemble o.byte 0 0 0) (assemble 0xFF o.unusedF1 o.unusedF2 0xFF)
    (fieldOpc w) (fieldF1 w) (fieldF2 w) (fieldF3 w)
  rw [assemble_fields] at fields
  rw [mustBeZero_iff, Opcode.row, fields]
  simp [and_wholeByte]

/-- The decoder on a whole word: the opcode's row accepts the word, and the operands are its fields. -/
theorem decode_ok {w : Word} {i : Instr} :
    decode w = .ok i ↔ ∃ o : Opcode, o.row.accepts w = true ∧ i = operandsOf (fieldF1 w) (fieldF2 w) o := by
  simp only [decode, decodeFields_ok, Opcode.row_accepts, and_assoc]

/-- An opcode's row decides whether a word is a command with its mnemonic. -/
theorem Opcode.row_accepts_iff_decodes (o : Opcode) (w : Word) :
    o.row.accepts w = true ↔ ∃ i, decode w = .ok i ∧ i.mnemonic = o.mnemonic := by
  constructor
  · exact fun h => ⟨_, decode_ok.2 ⟨o, h, rfl⟩, mnemonic_operandsOf _ _ o⟩
  · rintro ⟨i, hi, hm⟩
    obtain ⟨o', h, rfl⟩ := decode_ok.1 hi
    rw [mnemonic_operandsOf] at hm
    exact Opcode.mnemonic_injective hm ▸ h

/-- A word that decodes is well formed. -/
theorem wellFormed_of_decode {w : Word} {i : Instr} (h : decode w = .ok i) : wellFormed w = true := by
  obtain ⟨o, ho, -⟩ := decode_ok.1 h
  exact List.any_eq_true.2 ⟨o.row, mem_opTable.2 ⟨o, rfl⟩, ho⟩

namespace Machine

/-- A word that is not well formed is reported as illegal, in every state (R84, R256). -/
theorem runWord_of_not_wellFormed {w : Word} (h : wellFormed w = false) (s : State) :
    runWord w s = .next (s.finish .illegalCommand 0 0 0) := by
  unfold runWord
  split
  · rename_i i hi
    exact absurd (wellFormed_of_decode hi) (by simp [h])
  · rfl

/-- Settles O3: every row is an opcode's and decides what decodes to its mnemonic; a word without a row is reported. -/
theorem maskAndMatchDecideTheCommand : Obligations.MaskAndMatchDecideTheCommand := by
  unfold Obligations.MaskAndMatchDecideTheCommand
  refine fun w => ⟨fun r hr => ?_, fun h s => runWord_of_not_wellFormed h s⟩
  obtain ⟨o, rfl⟩ := mem_opTable.1 hr
  exact o.row_accepts_iff_decodes w

end Machine
end Sys2Proof
end

section
/-! PROOFS. The character codec (40_character_codec.md R110 to R115): which command word gives each of its two commands, and
what each case of them leaves. -/

namespace Sys2Proof

/-- A word put together from an opcode's number and fields whose must-be-zero bits are zero is that opcode's command (R82,
R83). -/
theorem decode_assemble {o : Opcode} {f1 f2 f3 : Byte} (h : mustBeZero f1 f2 f3 o = true) :
    decode (assemble o.byte f1 f2 f3) = .ok (operandsOf f1 f2 o) := by
  rw [decode, fieldOpc_assemble, fieldF1_assemble, fieldF2_assemble, fieldF3_assemble]
  exact decodeFields_ok.2 ⟨o, rfl, h, rfl⟩

/-- `F2` of `CHAR_DEC` holds the parity bit, and zeros above it (R83). -/
theorem bit_of_setWidth : ∀ p : BitVec 1,
    (p.setWidth 8).extractLsb' 0 1 = p ∧ (p.setWidth 8).extractLsb' 1 7 = 0 := by decide

theorem decode_charEnc (d : Byte) : decode (assemble 0x01 d 0 0) = .ok (.charEnc d) :=
  decode_assemble (o := .charEnc) rfl

theorem decode_charDec (b : Byte) (p : BitVec 1) :
    decode (assemble 0x02 b (p.setWidth 8) 0) = .ok (.charDec b p) := by
  obtain ⟨hbit, hzero⟩ := bit_of_setWidth p
  have hmbz : mustBeZero b (p.setWidth 8) 0 .charDec = true := by simp [mustBeZero, hzero]
  have hdecode := decode_assemble hmbz
  rwa [operandsOf, hbit] at hdecode

namespace Machine

/-! ### Control values and data (R112) -/

/-- Which marker a byte stands for: each of the four control values its own field of `CTRL_MAP`, and no other byte any. -/
theorem ctrlMarker_eq_some_iff {c : CtrlMap} {b : Byte} {m : Marker} :
    ctrlMarker c b = some m ↔
      (b = 0 ∧ m = c.of0) ∨ (b = 1 ∧ m = c.of1) ∨ (b = 2 ∧ m = c.of2) ∨ (b = 3 ∧ m = c.of3) := by
  constructor
  · intro h
    unfold ctrlMarker at h
    split at h
    · exact .inl ⟨by assumption, (Option.some.inj h).symm⟩
    split at h
    · exact .inr (.inl ⟨by assumption, (Option.some.inj h).symm⟩)
    split at h
    · exact .inr (.inr (.inl ⟨by assumption, (Option.some.inj h).symm⟩))
    split at h
    · exact .inr (.inr (.inr ⟨by assumption, (Option.some.inj h).symm⟩))
    · cases h
  · rintro (⟨rfl, rfl⟩ | ⟨rfl, rfl⟩ | ⟨rfl, rfl⟩ | ⟨rfl, rfl⟩) <;> rfl

/-- A byte from 4 on is data. -/
theorem ctrlMarker_of_ge {c : CtrlMap} {b : Byte} (h : 4 ≤ b.toNat) : ctrlMarker c b = none := by
  refine Option.eq_none_iff_forall_ne_some.2 fun m hm => ?_
  obtain ⟨rfl, -⟩ | ⟨rfl, -⟩ | ⟨rfl, -⟩ | ⟨rfl, -⟩ := ctrlMarker_eq_some_iff.1 hm <;> exact absurd h (by decide)

/-! ### The three ends of `CHAR_DEC` (R115) -/

section charDec
variable {b : Byte} {p : BitVec 1} {s : State}

/-- A wrong parity bit is an error, whatever the byte. -/
theorem execCharDec_of_parity_ne (hp : p ≠ parity b) :
    execCharDec b p s = .next (s.finish .parityError 0 0 0) := if_pos hp

/-- With the right parity bit a control value gives its marker's code and no data. -/
theorem execCharDec_of_control (hp : p = parity b) {m : Marker} (hm : ctrlMarker s.cfg.ctrlMap b = some m) :
    execCharDec b p s = .next (s.finish (codeOfMarker m) 0 0 0) := by
  rw [execCharDec, if_neg (not_not.2 hp), hm]
  exact done_eq ..

/-- With the right parity bit any other byte is data. -/
theorem execCharDec_of_data (hp : p = parity b) (hb : 4 ≤ b.toNat) :
    execCharDec b p s = .next (s.finish .ok (zext32 b) 0 0) := by
  rw [execCharDec, if_neg (not_not.2 hp), ctrlMarker_of_ge hb]
  exact done_eq ..

end charDec

/-- Settles O23: the three cases of `CHAR_DEC` (parity, control value, data) each end by `finish` and nothing else. -/
theorem charDecChecksParityThenClassifies : Obligations.CharDecChecksParityThenClassifies := by
  unfold Obligations.CharDecChecksParityThenClassifies
  refine ⟨fun b p s => ⟨decode_charDec b p, fun hp => ?_, fun hp m hm => ?_, fun hp hb => ?_⟩, rfl, rfl, rfl, rfl⟩
  · exact ⟨_, execCharDec_of_parity_ne hp, finish_only ..⟩
  · exact ⟨_, execCharDec_of_control hp (ctrlMarker_eq_some_iff.2 hm), finish_only ..⟩
  · exact ⟨_, execCharDec_of_data hp hb, finish_only ..⟩

/-- Settles O22: `CHAR_ENC` is one `finish`, for every byte and state. -/
theorem charEncGivesByteAndParity : Obligations.CharEncGivesByteAndParity := by
  unfold Obligations.CharEncGivesByteAndParity
  exact fun d => ⟨decode_charEnc d, fun s => ⟨_, rfl, finish_only ..⟩⟩

end Machine
end Sys2Proof
end

section
/-! PROOFS. `CRC16` (41_crc.md R133): which command word gives it, and what each of its ends leaves. -/

namespace Sys2Proof

theorem decode_crc16 : decode (assemble 0x03 0 0 0) = .ok .crc16 :=
  decode_assemble (o := .crc16) rfl

namespace Machine

/-- At a NULL address there is nothing to access, so no check: the preset is the result whatever the length. -/
theorem execCrc16_null {s : State} (h0 : s.arg0 = 0) :
    execCrc16 s = .next (s.finish .ok (zext32 s.cfg.crcInit) 0 0) :=
  if_pos h0

/-- An accessible range passes the footprint check, and its CRC is the result. -/
theorem execCrc16_accessible {s : State} (h0 : s.arg0 ≠ 0)
    (ha : s.accessible s.arg0.toNat s.arg1.toNat = true) :
    execCrc16 s = .next (s.finish .ok (zext32 (s.crcOf s.arg0.toNat s.arg1.toNat)) 0 0) := by
  rw [execCrc16_go h0, withFootprint_accessible (by simpa using ha), done_eq]

/-- Settles O26: `CRC16` ends by one `finish` at a NULL address and on an accessible range, and is stuck on a range that is
not admitted (`execCrc16_stuck`). -/
theorem crc16CommandGivesTheCrc : Obligations.Crc16CommandGivesTheCrc := by
  unfold Obligations.Crc16CommandGivesTheCrc
  refine ⟨decode_crc16, fun s => ⟨fun h0 => ?_, fun h0 ha => ?_, execCrc16_stuck⟩⟩
  · exact ⟨_, execCrc16_null h0, finish_only ..⟩
  · exact ⟨_, execCrc16_accessible h0 ha, finish_only ..⟩

end Machine
end Sys2Proof
end

section
/-! PROOFS. The frame codec (42_frame_codec.md R150 to R155): `FRAME_SIZE`, the frame `FRAME_ENC` leaves in memory and its
refusal of overlapping ranges, and every end of `FRAME_DEC`. -/

namespace Sys2Proof

theorem decode_frameSize : decode (assemble 0x10 0 0 0) = .ok .frameSize :=
  decode_assemble (o := .frameSize) rfl

theorem decode_frameDec : decode (assemble 0x12 0 0 0) = .ok .frameDec :=
  decode_assemble (o := .frameDec) rfl

namespace Machine

/-! ### A frame in memory (R150) -/

/-- Ranges with the same bytes read the same at each place. -/
theorem Memory.read_of_readBytes_eq {m m' : Memory} {a b n : Nat} (h : m.readBytes a n = m'.readBytes b n)
    {k : Nat} (hk : k < n) : m.read (a + k) = m'.read (b + k) := by
  induction n generalizing a b k with
  | zero => omega
  | succ n ih =>
    simp only [Memory.readBytes, List.cons.injEq] at h
    obtain ⟨hhead, htail⟩ := h
    cases k with
    | zero => exact hhead
    | succ k => simpa only [Nat.add_assoc, Nat.add_comm 1 k] using ih htail (Nat.lt_of_succ_lt_succ hk)

/-- Where memory holds a frame, its fields stand at their places: header, payload, and the CRC of both, high byte first. -/
theorem reads_of_frameBytes {m : Memory} {init : Half} {t i : Byte} {payload : List Byte} {ba n : Nat}
    (hn : payload.length = n) (h : m.readBytes ba (n + 4) = frameBytes init t i payload) :
    m.read ba = t ∧ m.read (ba + 1) = i ∧ m.readBytes (ba + 2) n = payload ∧
      m.read (ba + 2 + n) = (crc16 init (m.readBytes ba (n + 2))).extractLsb' 8 8 ∧
      m.read (ba + 3 + n) = (crc16 init (m.readBytes ba (n + 2))).extractLsb' 0 8 := by
  rw [show n + 4 = n + 2 + 2 from rfl, Memory.readBytes_add] at h
  obtain ⟨hbody, htrailer⟩ := List.append_inj h (by simp [Memory.length_readBytes, hn])
  rw [← hbody] at htrailer
  simp only [Memory.readBytes, List.cons.injEq, and_true] at hbody htrailer
  obtain ⟨ht, hi, hpayload⟩ := hbody
  obtain ⟨hhigh, hlow⟩ := htrailer
  refine ⟨ht, hi, hpayload, ?_, ?_⟩
  · rwa [show ba + 2 + n = ba + (n + 2) by omega]
  · rwa [show ba + 3 + n = ba + (n + 2) + 1 by omega]

/-! ### `FRAME_ENC` past its argument checks (R152, R153) -/

/-- With an accessible footprint, `FRAME_ENC` makes the writes of the frame and ends `OK`. -/
theorem execFrameEnc_accessible (t i : Byte) {s : State} (h2 : s.arg2 ≠ 0) (h1 : s.arg1.toNat < 65536)
    (h0 : s.arg0 = 0 → s.arg1 = 0) (hc : s.arg1.toNat + 4 ≤ s.arg3.toNat)
    (ho : overlaps s.arg0.toNat s.arg1.toNat s.arg2.toNat (s.arg1.toNat + 4) = false)
    (hdest : s.accessible s.arg2.toNat (s.arg1.toNat + 4) = true)
    (hpayload : s.arg1 ≠ 0 → s.accessible s.arg0.toNat s.arg1.toNat = true) :
    execFrameEnc t i s = .next
      ((s.setMem (frameWrites s.cfg.crcInit t i s.arg0.toNat s.arg2.toNat s.arg1.toNat s.mem)).finish .ok
        (s.arg1 + 4) 0 0) := by
  rw [execFrameEnc_go t i h2 h1 h0 hc ho, withFootprint_accessible, done_eq]
  intro r hr
  obtain rfl | ⟨hn, rfl⟩ := mem_frameEncFootprint.1 hr
  · exact hdest
  · exact hpayload (BitVec.toNat_ne_iff_ne.1 hn)

/-- A shared address is an overlap (R153). -/
theorem overlaps_of_shared {x m y k a : Nat} (hxa : x ≤ a) (hax : a < x + m) (hya : y ≤ a) (hay : a < y + k) :
    overlaps x m y k = true := by
  simp only [overlaps, Bool.and_eq_true, decide_eq_true_eq]
  omega

/-- Past the checks that give a status code, overlapping ranges are refused. -/
theorem execFrameEnc_overlap (t i : Byte) {s : State} (h2 : s.arg2 ≠ 0) (h0 : s.arg0 ≠ 0)
    (h1 : s.arg1.toNat < 65536) (hc : s.arg1.toNat + 4 ≤ s.arg3.toNat)
    (ho : overlaps s.arg0.toNat s.arg1.toNat s.arg2.toNat (s.arg1.toNat + 4) = true) :
    execFrameEnc t i s = .refused .overlap := by
  have hfits : fitsHalf s.arg1 = true := (fitsHalf_iff _).2 h1
  have hlen : s.payloadLen = s.arg1.toNat := toNat_lowHalf h1
  simp only [execFrameEnc, hlen, frameSize_eq]
  rw [if_neg (show ¬s.arg2 = nullAddr from h2), if_neg (by simp [hfits]),
    if_neg (fun hnull => h0 hnull.1), if_neg (Nat.not_lt.2 hc), if_pos ho]

/-- Settles O35: an address in both ranges makes them overlap, which `FRAME_ENC` refuses before its footprint check. -/
theorem overlappingFrameEncIsRefused : Obligations.OverlappingFrameEncIsRefused := by
  unfold Obligations.OverlappingFrameEncIsRefused
  intro d p s x h2 h0 h1 hc hp hp' hd hd'
  exact execFrameEnc_overlap d p h2 h0 h1 hc (overlaps_of_shared hp hp' hd hd')

/-- Settles O33: the writes leave the bytes of the frame at the destination (`readBytes_frameWrites`), whose fields are read
off one by one, and nothing outside it (`read_frameWrites_outside`). -/
theorem frameEncWritesTheFrame : Obligations.FrameEncWritesTheFrame := by
  unfold Obligations.FrameEncWritesTheFrame
  intro d p s hwf h2 h1 h0 hc ho hdest hpayload
  have hadmitted : admitted s.cfg s.arg2.toNat (s.arg1.toNat + 4) = true := (Bool.and_eq_true_iff.1 hdest).1
  have hbound := admitted_bound hadmitted (Nat.succ_ne_zero _)
  have hdisjoint : s.arg1.toNat = 0 ∨ s.arg0.toNat + s.arg1.toNat ≤ s.arg2.toNat ∨
      s.arg2.toNat + (s.arg1.toNat + 4) ≤ s.arg0.toNat :=
    or_iff_not_imp_left.2 fun hn => overlaps_false ho hn (Nat.succ_ne_zero _)
  rw [← frameSize_eq] at hbound hdisjoint
  have hframe := readBytes_frameWrites (init := s.cfg.crcInit) (t := d) (i := p) hwf hbound hdisjoint
  rw [frameSize_eq] at hframe
  obtain ⟨ht, hi, hbytes, hhigh, hlow⟩ := reads_of_frameBytes (Memory.length_readBytes ..) hframe
  refine ⟨_, execFrameEnc_accessible d p h2 h1 h0 hc ho hdest hpayload, ⟨rfl, rfl, rfl, rfl⟩, ht, hi,
    fun k hk => Memory.read_of_readBytes_eq hbytes hk, hhigh, hlow, fun x hx => ?_,
    ⟨rfl, rfl, rfl, rfl, rfl, rfl, rfl, rfl, rfl, rfl⟩, ⟨rfl, rfl, rfl, rfl, rfl⟩⟩
  rw [← frameSize_eq] at hx
  exact read_frameWrites_outside hwf hbound hx

/-! ### The ends of `FRAME_DEC` (R155) -/

/-- A NULL buffer is the first error. -/
theorem execFrameDec_null {s : State} (h0 : s.arg0 = 0) : execFrameDec s = .next (s.finish .invalidArgument 0 0 0) :=
  if_pos h0

/-- A length outside the bounds of a frame is malformed. -/
theorem execFrameDec_length {s : State} (h0 : s.arg0 ≠ 0) (hl : s.arg1.toNat < 4 ∨ 65539 < s.arg1.toNat) :
    execFrameDec s = .next (s.finish .malformedFrame 0 0 0) := by
  unfold execFrameDec
  rw [if_neg (show ¬s.arg0 = nullAddr from h0)]
  obtain hshort | hlong := hl
  · rw [if_pos hshort, raise_eq]
  · rw [if_neg (show ¬s.arg1.toNat < minFrame from by simp only [minFrame]; omega), if_pos hlong, raise_eq]

/-- The header word is the two header bytes, zero-extended. -/
theorem frameHeaderWord_eq (i t : Byte) : frameHeaderWord i t = zext32 (i ++ t) := by
  rw [frameHeaderWord, BitVec.append_assoc, zext32, BitVec.setWidth_eq_append (by decide : 8 + 8 ≤ 32)]

/-- Settles O38: each check of `FRAME_DEC` ends it by one `finish` (or leaves it stuck), and past all of them the comparison
of the checksum decides (`execFrameDec_go`). -/
theorem frameDecChecksAndReturnsTheView : Obligations.FrameDecChecksAndReturnsTheView := by
  unfold Obligations.FrameDecChecksAndReturnsTheView
  refine ⟨decode_frameDec, fun s => ⟨fun h0 => ?_, fun h0 hl => ?_, execFrameDec_stuck, fun h0 h4 h5 ha hcrc => ?_,
    fun h0 h4 h5 ha hcrc => ?_⟩⟩
  · exact ⟨_, execFrameDec_null h0, finish_only ..⟩
  · exact ⟨_, execFrameDec_length h0 hl, finish_only ..⟩
  · exact ⟨_, (execFrameDec_go h0 h4 h5 ha).trans (if_pos hcrc), finish_only ..⟩
  · rw [← frameHeaderWord_eq]
    exact ⟨_, (execFrameDec_go h0 h4 h5 ha).trans (if_neg (not_not.2 hcrc)), finish_only ..⟩

/-! ### `FRAME_SIZE` (R151) -/

/-- A register below 2^16 is its low half, zero-extended. -/
theorem zext32_lowHalf {w : Word} (h : w.toNat < 65536) : zext32 (lowHalf w) = w := by
  apply BitVec.eq_of_toNat_eq
  rw [BitVec.toNat_setWidth, toNat_lowHalf h, Nat.mod_eq_of_lt w.isLt]

theorem execFrameSize_fits {s : State} (h1 : s.arg1.toNat < 65536) :
    execFrameSize s = .next (s.finish .ok (s.arg1 + 4) 0 0) := by
  rw [execFrameSize, if_pos ((fitsHalf_iff _).2 h1), zext32_lowHalf h1, BitVec.add_comm, done_eq]

theorem execFrameSize_tooLong {s : State} (h1 : 65536 ≤ s.arg1.toNat) :
    execFrameSize s = .next (s.finish .invalidArgument 0 0 0) :=
  if_neg fun hfits => absurd ((fitsHalf_iff _).1 hfits) (Nat.not_lt.2 h1)

/-- Settles O32: `FRAME_SIZE` ends by one `finish` on each side of 2^16, and below it the sum does not wrap. -/
theorem frameSizeIsPayloadPlusFour : Obligations.FrameSizeIsPayloadPlusFour := by
  unfold Obligations.FrameSizeIsPayloadPlusFour
  refine ⟨decode_frameSize, fun s => ⟨fun h1 => ?_, fun h1 => ?_⟩⟩
  · have hsum : (s.arg1 + 4).toNat = s.arg1.toNat + 4 := BitVec.toNat_add_of_lt (by simp; omega)
    exact ⟨_, execFrameSize_fits h1, finish_only .., hsum⟩
  · exact ⟨_, execFrameSize_tooLong h1, finish_only ..⟩

end Machine
end Sys2Proof
end

section
/-! PROOFS. The router (43_router.md R180 to R191): which command word gives each of its seven commands, and what each
case of them leaves. -/

namespace Sys2Proof

theorem decode_rtrInit (a n : Byte) : decode (assemble 0x20 a n 0) = .ok (.rtrInit a n) :=
  decode_assemble (o := .rtrInit) rfl

theorem decode_rtrAddRoute (e o : Byte) : decode (assemble 0x21 e o 0) = .ok (.rtrAddRoute e o) :=
  decode_assemble (o := .rtrAddRoute) rfl

theorem decode_rtrOpenCh (c : Byte) : decode (assemble 0x22 c 0 0) = .ok (.rtrOpenCh c) :=
  decode_assemble (o := .rtrOpenCh) rfl

theorem decode_rtrRoute (d : Byte) : decode (assemble 0x23 d 0 0) = .ok (.rtrRoute d) :=
  decode_assemble (o := .rtrRoute) rfl

theorem decode_rtrReadRoute (e : Byte) : decode (assemble 0x24 e 0 0) = .ok (.rtrReadRoute e) :=
  decode_assemble (o := .rtrReadRoute) rfl

theorem decode_rtrReadCfg : decode (assemble 0x25 0 0 0) = .ok .rtrReadCfg :=
  decode_assemble (o := .rtrReadCfg) rfl

theorem decode_vcRead (c : Byte) : decode (assemble 0x26 c 0 0) = .ok (.vcRead c) :=
  decode_assemble (o := .vcRead) rfl

namespace Machine

/-! ### A byte that is an index, and the table it indexes -/

theorem portIndex_of_toNat {q : Byte} {p : Fin 8} (h : q.toNat = p) : portIndex q = some p := by
  rw [portIndex_of_lt (h ▸ p.isLt), Option.some.injEq]
  exact Fin.ext h

theorem destIndex_of_toNat {e : Byte} {d : Fin 8} (h : e.toNat = d) : destIndex e = some d := by
  rw [destIndex_of_lt (h ▸ d.isLt), Option.some.injEq]
  exact Fin.ext h

theorem chanIndex_of_toNat {c : Byte} {k : Fin 16} (h : c.toNat = k) : chanIndex c = some k := by
  rw [chanIndex_of_lt (h ▸ k.isLt), Option.some.injEq]
  exact Fin.ext h

/-- Writing one entry of a table leaves the others (the entry itself: `Vector.getElem_set_self`). -/
theorem vector_getElem_set_of_ne {α : Type} {n : Nat} (v : Vector α n) (i : Fin n) (x : α) {j : Fin n} (h : j ≠ i) :
    (v.set i x)[j] = v[j] :=
  Vector.getElem_set_ne i.isLt j.isLt fun hij => h (Fin.ext hij.symm)

/-! ### `RTR_INIT` (R181) -/

/-- The stored port count is clamped. -/
theorem toNat_clampPorts (n : Byte) : (clampPorts n).toNat = min n.toNat 8 := by
  unfold clampPorts
  split
  · next h => exact (Nat.min_eq_left h).symm
  · next h => exact (Nat.min_eq_right (Nat.le_of_not_le h)).symm

theorem initRouter_getLink (s : State) (a n : Byte) (p : Fin 8) :
    (s.initRouter a n).link[p] = (s.link[p]).routerInit p := by
  simp

theorem initRouter_getChannel (s : State) (a n : Byte) (c : Fin 16) : (s.initRouter a n).vc[c] = Channel.initial := by
  simp

theorem initRouter_getRoute (s : State) (a n : Byte) (d : Fin 8) : (s.initRouter a n).route[d] = routeEmpty := by
  simp

/-- Settles O42: `RTR_INIT` is `initRouter`, read field by field, and one `finish`. -/
theorem rtrInitInitialisesTheRouter : Obligations.RtrInitInitialisesTheRouter := by
  unfold Obligations.RtrInitInitialisesTheRouter
  refine fun a n s => ⟨decode_rtrInit a n, (s.initRouter a n).finish .ok 0 0 0, rfl, (finish_only ..).1, rfl,
    toNat_clampPorts n, initRouter_getLink s a n, fun c => ?_, initRouter_getRoute s a n,
    (CommandEffect.routerInit a n s).sameHostSide, fun _ => rfl⟩
  have hc : ((s.initRouter a n).finish .ok 0 0 0).vc[c] = Channel.initial := initRouter_getChannel s a n c
  rw [hc]
  exact ⟨rfl, rfl⟩

/-! ### `RTR_ADD_ROUTE` (R183) -/

section addRoute
variable {e o : Byte} {s : State}

theorem execRtrAddRoute_stored {d : Fin 8} (he : e.toNat = d) (ho : o.toNat < s.numPorts.toNat) :
    execRtrAddRoute e o s = .next ((s.setRoute d o).finish .ok 0 0 0) := by
  simp only [execRtrAddRoute, destIndex_of_toNat he]
  exact if_neg (Nat.not_le.2 ho)

theorem execRtrAddRoute_ignored (h : 8 ≤ e.toNat ∨ s.numPorts.toNat ≤ o.toNat) :
    execRtrAddRoute e o s = .next (s.finish .ok 0 0 0) := by
  unfold execRtrAddRoute
  split
  · rfl
  · next d hd =>
    have he : e.toNat < 8 := destIndex_some hd ▸ d.isLt
    exact if_pos (h.resolve_left (Nat.not_le.2 he))

end addRoute

/-- Settles O43: the entry is stored (`execRtrAddRoute_stored`), or the command is one `finish` and nothing else
(`execRtrAddRoute_ignored`). -/
theorem rtrAddRouteStoresOrIgnores : Obligations.RtrAddRouteStoresOrIgnores := by
  unfold Obligations.RtrAddRouteStoresOrIgnores
  refine fun e o s => ⟨decode_rtrAddRoute e o, fun d he ho => ?_, fun h => ?_⟩
  · have hexec : exec (.rtrAddRoute e o) s = .next ((s.setRoute d o).finish .ok 0 0 0) := execRtrAddRoute_stored he ho
    exact ⟨_, hexec, (finish_only ..).1, Vector.getElem_set_self d.isLt,
      fun _ hd' => vector_getElem_set_of_ne s.route d o hd', rfl, rfl, rfl, rfl,
      (exec_next hexec).sameHostSide, fun _ => rfl⟩
  · exact ⟨_, execRtrAddRoute_ignored h, finish_only ..⟩

/-! ### `RTR_ROUTE` (R187): its checks in order -/

section route
variable {d : Byte} {s : State}

theorem execRtrRoute_local (hd : d = s.deviceAddr) : execRtrRoute d s = .next (s.finish .notRouted 0 0 0) :=
  if_pos hd

theorem execRtrRoute_noEntry (hd : d ≠ s.deviceAddr) (h8 : 8 ≤ d.toNat) :
    execRtrRoute d s = .next (s.finish .routingMiss 0 0 0) := by
  simp only [execRtrRoute, destIndex_of_ge h8]
  exact if_neg hd

/-- Past the first two checks the port range decides. -/
theorem execRtrRoute_entry {e : Fin 8} (hd : d ≠ s.deviceAddr) (he : d.toNat = e) :
    execRtrRoute d s = if s.numPorts ≤ s.route[e] then raise .routingMiss s else routeVia s.route[e] s := by
  simp only [execRtrRoute, destIndex_of_toNat he]
  exact if_neg hd

theorem routeVia_unconnected {b : Byte} {p : Fin 8} (hp : b.toNat = p) (hst : (s.link[p]).state ≠ .connected) :
    routeVia b s = .next (s.finish .routingMiss 0 0 0) := by
  simp only [routeVia, portIndex_of_toNat hp]
  exact if_neg hst

theorem routeVia_connected {b : Byte} {p : Fin 8} (hp : b.toNat = p) (hst : (s.link[p]).state = .connected) :
    routeVia b s = .next ((s.setLink p (s.link[p]).countTx).finish .ok (zext32 b) 0 0) := by
  simp only [routeVia, portIndex_of_toNat hp]
  exact if_pos hst

end route

/-- Settles O45: the checks of `RTR_ROUTE` one after the other, each ending it by one `finish`; past all of them only the
entry of the port is written. -/
theorem rtrRouteChoosesThePort : Obligations.RtrRouteChoosesThePort := by
  unfold Obligations.RtrRouteChoosesThePort
  refine fun d s _ => ⟨decode_rtrRoute d, fun hd => ?_, fun hd h8 => ?_, fun e hd he => ⟨fun hge => ?_,
    fun p hp hlt => ?_⟩⟩
  · exact ⟨_, execRtrRoute_local hd, finish_only ..⟩
  · exact ⟨_, execRtrRoute_noEntry hd h8, finish_only ..⟩
  · exact ⟨_, (execRtrRoute_entry hd he).trans (if_pos hge), finish_only ..⟩
  · have hvia : exec (.rtrRoute d) s = routeVia s.route[e] s :=
      (execRtrRoute_entry hd he).trans (if_neg (Nat.not_le.2 hlt))
    refine ⟨fun hst => ?_, fun hst => ?_⟩
    · exact ⟨_, hvia.trans (routeVia_unconnected hp hst), finish_only ..⟩
    · have hexec := hvia.trans (routeVia_connected hp hst)
      exact ⟨_, hexec, (finish_only ..).1, Vector.getElem_set_self p.isLt,
        fun _ hq => vector_getElem_set_of_ne s.link p _ hq, rfl, rfl, rfl, rfl,
        (exec_next hexec).sameHostSide, fun _ => rfl⟩

/-! ### `RTR_OPEN_CH` (R185) -/

theorem execRtrOpenCh_opened {c : Byte} {k : Fin 16} (hc : c.toNat = k) (s : State) :
    execRtrOpenCh c s = .next ((s.openChannel k).finish .ok 1 0 0) := by
  simp only [execRtrOpenCh, chanIndex_of_toNat hc, done_eq]

theorem execRtrOpenCh_outside {c : Byte} (hc : 16 ≤ c.toNat) (s : State) :
    execRtrOpenCh c s = .next (s.finish .ok 0 0 0) := by
  simp only [execRtrOpenCh, chanIndex_of_ge hc, done_eq]

/-- Settles O44: below 16 only the active flag of one channel is written; from 16 on nothing is. -/
theorem rtrOpenChActivatesTheChannel : Obligations.RtrOpenChActivatesTheChannel := by
  unfold Obligations.RtrOpenChActivatesTheChannel
  refine fun c s => ⟨decode_rtrOpenCh c, fun k hc => ?_, fun hc => ?_⟩
  · have hexec : exec (.rtrOpenCh c) s = .next ((s.openChannel k).finish .ok 1 0 0) := execRtrOpenCh_opened hc s
    have hk : ((s.openChannel k).finish .ok 1 0 0).vc[k] = { s.vc[k] with active := true } :=
      Vector.getElem_set_self k.isLt
    exact ⟨_, hexec, (finish_only ..).1, by rw [hk], by rw [hk],
      fun _ hk' => vector_getElem_set_of_ne s.vc k _ hk', rfl, rfl, rfl, rfl,
      (exec_next hexec).sameHostSide, fun _ => rfl⟩
  · exact ⟨_, execRtrOpenCh_outside hc s, finish_only ..⟩

/-! ### `RTR_READ_ROUTE` (R189) and `RTR_READ_CFG` (R190) -/

theorem execRtrReadRoute_entry {e : Byte} {d : Fin 8} (he : e.toNat = d) (s : State) :
    execRtrReadRoute e s = .next (s.finish .ok (zext32 s.route[d]) 0 0) := by
  simp only [execRtrReadRoute, destIndex_of_toNat he, done_eq]

theorem execRtrReadRoute_outside {e : Byte} (he : 8 ≤ e.toNat) (s : State) :
    execRtrReadRoute e s = .next (s.finish .invalidArgument 0 0 0) := by
  simp only [execRtrReadRoute, destIndex_of_ge he, raise_eq]

/-- Settles O46: both cases are one `finish` and nothing else. -/
theorem rtrReadRouteReturnsTheEntry : Obligations.RtrReadRouteReturnsTheEntry := by
  unfold Obligations.RtrReadRouteReturnsTheEntry
  refine fun e s => ⟨decode_rtrReadRoute e, fun d he => ?_, fun he => ?_⟩
  · exact ⟨_, execRtrReadRoute_entry he s, finish_only ..⟩
  · exact ⟨_, execRtrReadRoute_outside he s, finish_only ..⟩

/-- Settles O47: `RTR_READ_CFG` is one `finish` with the two configuration bytes, which are 0 at reset. -/
theorem rtrReadCfgReturnsTheConfiguration : Obligations.RtrReadCfgReturnsTheConfiguration := by
  unfold Obligations.RtrReadCfgReturnsTheConfiguration
  exact ⟨decode_rtrReadCfg, fun s => ⟨_, rfl, finish_only ..⟩, _, rfl, rfl, rfl⟩

/-! ### `VC_READ` (R191) -/

/-- A channel's hard-wired id, zero-extended, is the operand that names it. -/
theorem zext32_vcId {c : Byte} {k : Fin 16} (hc : c.toNat = k) : zext32 (vcId k) = zext32 c := by
  apply BitVec.eq_of_toNat_eq
  have hk := k.isLt
  simp only [vcId, BitVec.toNat_setWidth, BitVec.toNat_ofNat, hc]
  omega

theorem execVcRead_channel {c : Byte} {k : Fin 16} (hc : c.toNat = k) (s : State) :
    execVcRead c s = .next
      (s.finish .ok (zext32 c) (if (s.vc[k]).active then 1 else 0) (zext32 (s.vc[k]).credits)) := by
  simp only [execVcRead, chanIndex_of_toNat hc, zext32_vcId hc, done_eq]

theorem execVcRead_outside {c : Byte} (hc : 16 ≤ c.toNat) (s : State) :
    execVcRead c s = .next (s.finish .invalidArgument 0 0 0) := by
  simp only [execVcRead, chanIndex_of_ge hc, raise_eq]

/-- Settles O48: both cases are one `finish` and nothing else; after `RTR_INIT` every channel is the initial one. -/
theorem vcReadReturnsTheChannel : Obligations.VcReadReturnsTheChannel := by
  unfold Obligations.VcReadReturnsTheChannel
  refine ⟨fun c s => ⟨decode_vcRead c, fun k hc => ?_, fun hc => ?_⟩, fun c a n s t hc hinit => ?_⟩
  · exact ⟨_, execVcRead_channel hc s, finish_only ..⟩
  · exact ⟨_, execVcRead_outside hc s, finish_only ..⟩
  · obtain rfl : (s.initRouter a n).finish .ok 0 0 0 = t := by injection hinit
    have hread := execVcRead_channel (k := ⟨c.toNat, hc⟩) rfl ((s.initRouter a n).finish .ok 0 0 0)
    have hchannel : ((s.initRouter a n).finish .ok 0 0 0).vc[(⟨c.toNat, hc⟩ : Fin 16)] = Channel.initial :=
      initRouter_getChannel s a n _
    rw [hchannel] at hread
    exact ⟨_, hread, (finish_only ..).1⟩

end Machine
end Sys2Proof
end

section
/-! PROOFS. The link-state register file (44_link_state.md R221 to R224): which command word gives each of its three
commands, and what each case of them leaves. -/

namespace Sys2Proof

theorem decode_linkInit (q : Byte) (k : BitVec 1) :
    decode (assemble 0x30 q (k.setWidth 8) 0) = .ok (.linkInit q k) := by
  obtain ⟨hbit, hzero⟩ := bit_of_setWidth k
  have hmbz : mustBeZero q (k.setWidth 8) 0 .linkInit = true := by simp [mustBeZero, hzero]
  have hdecode := decode_assemble hmbz
  rwa [operandsOf, hbit] at hdecode

/-- `F2` of `LINK_SET_STATE` holds the three state bits, and zeros above them (R83). -/
theorem stateBits_of_setWidth : ∀ st : BitVec 3,
    (st.setWidth 8).extractLsb' 0 3 = st ∧ (st.setWidth 8).extractLsb' 3 5 = 0 := by decide

theorem decode_linkSetState (q : Byte) (st : BitVec 3) :
    decode (assemble 0x31 q (st.setWidth 8) 0) = .ok (.linkSetState q st) := by
  obtain ⟨hbits, hzero⟩ := stateBits_of_setWidth st
  have hmbz : mustBeZero q (st.setWidth 8) 0 .linkSetState = true := by simp [mustBeZero, hzero]
  have hdecode := decode_assemble hmbz
  rwa [operandsOf, hbits] at hdecode

theorem decode_linkRead (q l : Byte) : decode (assemble 0x32 q l 0) = .ok (.linkRead q l) :=
  decode_assemble (o := .linkRead) rfl

namespace Machine

/-! ### A port, and writing its entry of the file -/

theorem toNat_lt_of_portIndex {q : Byte} {p : Fin 8} (h : portIndex q = some p) : q.toNat < 8 :=
  portIndex_some h ▸ p.isLt

/-- A command that ends with `OK` after writing one link entry leaves the other entries, the router's state, the host's side
and memory as they were. -/
theorem finish_setLink {s t : State} {p : Fin 8} {k : Link} (ht : t = (s.setLink p k).finish .ok 0 0 0) :
    Finished t .ok 0 0 0 ∧ t.link[p] = k ∧ (∀ p' : Fin 8, p' ≠ p → t.link[p'] = s.link[p']) ∧
      t.deviceAddr = s.deviceAddr ∧ t.numPorts = s.numPorts ∧ t.route = s.route ∧ t.vc = s.vc ∧
      SameHostSide s t ∧ SameMemory s t := by
  subst ht
  obtain ⟨hfinished, hhost, -, hmem⟩ := finish_only (s.setLink p k) .ok 0 0 0
  exact ⟨hfinished, Vector.getElem_set_self p.isLt, fun _ hp' => vector_getElem_set_of_ne s.link p k hp',
    rfl, rfl, rfl, rfl, hhost, hmem⟩

/-! ### `LINK_INIT` (R221) -/

theorem lowHalf_eq_setWidth (w : Word) : lowHalf w = w.setWidth 16 :=
  (BitVec.setWidth_eq_extractLsb' (by decide)).symm

section linkInit
variable {q : Byte} {s : State} (k : BitVec 1)

theorem execLinkInit_configured {p : Fin 8} (hq : q.toNat = p) (h2 : s.arg2.toNat < 65536) :
    execLinkInit q k s = .next
      ((s.setLink p ((s.link[p]).configure s.arg0 s.arg1 (s.arg2.setWidth 16) k)).finish .ok 0 0 0) := by
  simp only [execLinkInit, portIndex_of_toNat hq, if_pos ((fitsHalf_iff _).2 h2), lowHalf_eq_setWidth, done_eq]

theorem execLinkInit_invalid (h : 8 ≤ q.toNat ∨ 65536 ≤ s.arg2.toNat) :
    execLinkInit q k s = .next (s.finish .invalidArgument 0 0 0) := by
  unfold execLinkInit
  split
  · rfl
  · next hp =>
    have h2 : 65536 ≤ s.arg2.toNat := h.resolve_left (Nat.not_le.2 (toNat_lt_of_portIndex hp))
    exact if_neg fun hfits => absurd ((fitsHalf_iff _).1 hfits) (Nat.not_lt.2 h2)

end linkInit

/-- Settles O50: in range the command is `Link.configure` on one entry (`execLinkInit_configured`), written alone
(`finish_setLink`); else it is one `finish` and nothing else. -/
theorem linkInitBindsTheConfiguration : Obligations.LinkInitBindsTheConfiguration := by
  unfold Obligations.LinkInitBindsTheConfiguration
  refine fun q k s => ⟨decode_linkInit q k, fun p hq h2 => ?_, fun h => ?_⟩
  · exact ⟨_, execLinkInit_configured k hq h2, finish_setLink rfl⟩
  · exact ⟨_, execLinkInit_invalid k h, finish_only ..⟩

/-! ### `LINK_SET_STATE` (R223) -/

/-- The number of a state names that state. -/
theorem linkStateOf_bits (v : LinkState) : linkStateOf v.bits = some v := by cases v <;> rfl

/-- The numbers 5 to 7 name no state. -/
theorem linkStateOf_of_gt : ∀ {st : BitVec 3}, 4 < st.toNat → linkStateOf st = none := by decide

theorem execLinkSetState_set {q : Byte} {p : Fin 8} (hq : q.toNat = p) (v : LinkState) (s : State) :
    execLinkSetState q v.bits s = .next ((s.setLink p ((s.link[p]).withState v)).finish .ok 0 0 0) := by
  simp only [execLinkSetState, portIndex_of_toNat hq, linkStateOf_bits, done_eq]

theorem execLinkSetState_invalid {q : Byte} {st : BitVec 3} (h : 8 ≤ q.toNat ∨ 4 < st.toNat) (s : State) :
    execLinkSetState q st s = .next (s.finish .invalidArgument 0 0 0) := by
  unfold execLinkSetState
  split
  · rfl
  · next hp =>
    rw [linkStateOf_of_gt (h.resolve_left (Nat.not_le.2 (toNat_lt_of_portIndex hp))), raise_eq]

/-- Settles O51: the five numbers set their states whatever the state was (`execLinkSetState_set`), in one entry alone
(`finish_setLink`); else the command is one `finish` and nothing else. -/
theorem linkSetStateSetsAnyState : Obligations.LinkSetStateSetsAnyState := by
  unfold Obligations.LinkSetStateSetsAnyState
  refine fun q st s => ⟨decode_linkSetState q st, fun p v hq hst => ?_, fun h => ?_⟩
  · subst hst
    exact ⟨_, execLinkSetState_set hq v s, finish_setLink rfl⟩
  · exact ⟨_, execLinkSetState_invalid h s, finish_only ..⟩

/-! ### `LINK_READ` (R224) -/

/-- The selectors 11 to 255 name no field. -/
theorem Link.field_of_ge (k : Link) {l : Byte} (h : 11 ≤ l.toNat) : k.field l = none := by
  have hne : ∀ n : Byte, n.toNat ≤ 10 → l ≠ n := by
    rintro _ hn rfl
    omega
  simp [Link.field, hne]

section linkRead
variable {q l : Byte} {s : State}

theorem execLinkRead_field {p : Fin 8} {v : Word} (hq : q.toNat = p) (hv : (s.link[p]).field l = some v) :
    execLinkRead q l s = .next (s.finish .ok v 0 0) := by
  simp only [execLinkRead, portIndex_of_toNat hq, hv, done_eq]

theorem execLinkRead_invalid (h : 8 ≤ q.toNat ∨ 11 ≤ l.toNat) :
    execLinkRead q l s = .next (s.finish .invalidArgument 0 0 0) := by
  unfold execLinkRead
  split
  · rfl
  · next hp =>
    rw [Link.field_of_ge _ (h.resolve_left (Nat.not_le.2 (toNat_lt_of_portIndex hp))), raise_eq]

end linkRead

/-- Settles O52: each of the eleven selectors is `Link.field` of it, and past the checks the command is one `finish` with that
field; both cases change nothing else. -/
theorem linkReadReturnsTheField : Obligations.LinkReadReturnsTheField := by
  unfold Obligations.LinkReadReturnsTheField
  refine fun q l s => ⟨decode_linkRead q l, fun p v hq hsel => ?_, fun h => ?_⟩
  · have hv : (s.link[p]).field l = some v := by
      rcases hsel with ⟨rfl, rfl⟩ | ⟨rfl, rfl⟩ | ⟨rfl, rfl⟩ | ⟨rfl, rfl⟩ | ⟨rfl, rfl⟩ | ⟨rfl, rfl⟩ | ⟨rfl, rfl⟩ |
        ⟨rfl, rfl⟩ | ⟨rfl, rfl⟩ | ⟨rfl, rfl⟩ | ⟨rfl, rfl⟩ <;> rfl
    exact ⟨_, execLinkRead_field hq hv, finish_only ..⟩
  · exact ⟨_, execLinkRead_invalid h, finish_only ..⟩

end Machine
end Sys2Proof
end

section
/-! PROOFS. The result codes of every command word at once (60_exceptions.md R250, R252, R255): which codes are written, what
an error leaves alone, and the link error counters. -/

namespace Sys2Proof.Machine

/-! ### The codes that are written (R250, R251) -/

/-- A command's own codes are among the written ones. -/
theorem codesOf_subset_written (i : Instr) : codesOf i ⊆ Code.written := by
  cases i <;> simp [codesOf, Code.written]

/-- A command word that ends has written one of these codes, an illegal word `ILLEGAL_COMMAND`. -/
theorem runWord_statusOk {w : Word} {s t : State} (h : runWord w s = .next t) : t.StatusOk := by
  obtain ⟨i, -, c, hc, -, -, -, -, -, -, rfl⟩ | ⟨-, rfl⟩ := runWord_next h
  · exact ⟨c, codesOf_subset_written i hc, rfl⟩
  · exact ⟨.illegalCommand, by decide, rfl⟩

/-- No written code has the number of a reserved one. -/
theorem Code.toByte_ne_reserved : ∀ c ∈ Code.written,
    c.toByte ≠ Code.encodingOverflow.toByte ∧ c.toByte ≠ Code.charInvalid.toByte := by
  decide

/-- Settles O15: every command word that ends leaves a written code in `STATUS` (`runWord_statusOk`), and none of them has
a reserved number. -/
theorem reservedCodesAreNeverWritten : Obligations.ReservedCodesAreNeverWritten := by
  unfold Obligations.ReservedCodesAreNeverWritten
  intro w s t h
  obtain ⟨c, hc, hst⟩ := runWord_statusOk h
  obtain ⟨hOverflow, hInvalid⟩ := Code.toByte_ne_reserved c hc
  exact ⟨hst ▸ hOverflow, hst ▸ hInvalid, rfl, rfl⟩

/-! ### An error is a status return (R252) -/

/-- An error code has not the number of `OK`. -/
theorem Code.toByte_ne_ok_of_isError {c : Code} (h : c.isError = true) : c.toByte ≠ Code.ok.toByte := by
  cases c with
  | ok => cases h
  | _ => decide

/-- A command that leaves any other code than `OK` is one `finish` with no results. -/
theorem Ends.eq_finish {i : Instr} {s t : State} (h : Ends i s t) (hne : t.status ≠ Code.ok.toByte) :
    ∃ c, t = s.finish c 0 0 0 := by
  obtain ⟨c, -, r0, r1, r2, u, -, hquiet, rfl⟩ := h
  obtain ⟨rfl, rfl, rfl, rfl⟩ := hquiet fun hc => hne (congrArg Code.toByte hc)
  exact ⟨c, rfl⟩

/-- So is a command word, illegal ones among them. -/
theorem runWord_eq_finish {w : Word} {s t : State} (h : runWord w s = .next t) (hne : t.status ≠ Code.ok.toByte) :
    ∃ c, t = s.finish c 0 0 0 := by
  obtain ⟨i, -, hi⟩ | ⟨-, rfl⟩ := runWord_next h
  · exact hi.eq_finish hne
  · exact ⟨.illegalCommand, rfl⟩

/-- One `finish` and nothing else, said with whichever code has the number in `STATUS`. -/
theorem finishedOnly_of_status {s : State} {c c' : Code} {r0 r1 r2 : Word}
    (h : (s.finish c' r0 r1 r2).status = c.toByte) : FinishedOnly s (s.finish c' r0 r1 r2) c r0 r1 r2 := by
  obtain ⟨⟨-, hres⟩, hrest⟩ := finish_only s c' r0 r1 r2
  exact ⟨⟨h, hres⟩, hrest⟩

/-! ### The link error counters (R44, R252) -/

/-- Writing a link entry that keeps its error counter changes no error counter. -/
theorem setLink_errors {s : State} {q : Fin 8} {k : Link} (hk : k.errors = (s.link[q]).errors) (p : Fin 8) :
    (((s.setLink q k).link)[p]).errors = (s.link[p]).errors := by
  rw [State.setLink_link]
  by_cases hpq : p = q
  · subst hpq
    exact (congrArg Link.errors (Vector.getElem_set_self p.isLt)).trans hk
  · rw [vector_getElem_set_of_ne _ _ _ hpq]

/-- The write of a command keeps every error counter, or clears it (`RTR_INIT`, R181). -/
theorem CommandEffect.errors {i : Instr} {s u : State} (h : CommandEffect i s u) (p : Fin 8) :
    (u.link[p]).errors = (s.link[p]).errors ∨ (u.link[p]).errors = 0 := by
  cases h with
  | routerInit a n => exact .inr (congrArg Link.errors (initRouter_getLink s a n p))
  | countTx | configure | linkState => exact .inl (setLink_errors (by rfl) p)
  | nothing | frame | addRoute | openChannel => exact .inl rfl

/-- So does a command word. -/
theorem runWord_errors {w : Word} {s t : State} (h : runWord w s = .next t) (p : Fin 8) :
    (t.link[p]).errors = (s.link[p]).errors ∨ (t.link[p]).errors = 0 := by
  obtain ⟨i, -, c, -, r0, r1, r2, u, hu, -, rfl⟩ | ⟨-, rfl⟩ := runWord_next h
  · exact hu.errors p
  · exact .inl rfl

/-- Settles O16: an error code is not `OK`, so the command was one `finish` with no results (`runWord_eq_finish`); of the
writes a command can make, none increments an error counter (`CommandEffect.errors`). -/
theorem errorsWriteOnlyStatusAndResults : Obligations.ErrorsWriteOnlyStatusAndResults := by
  unfold Obligations.ErrorsWriteOnlyStatusAndResults
  refine fun w s t h => ⟨fun c hc hst => ?_, runWord_errors h⟩
  have hne : t.status ≠ Code.ok.toByte := hst ▸ Code.toByte_ne_ok_of_isError hc
  obtain ⟨c', rfl⟩ := runWord_eq_finish h hne
  exact finishedOnly_of_status hst

end Sys2Proof.Machine
end

section
/-! PROOFS. Command words (30_encoding.md R80 to R89): decoding and encoding are inverse to each other, no word lies in two
rows of the opcode map, and the words of the spec's examples. -/

namespace Sys2Proof

theorem decode_frameEnc (t i : Byte) : decode (assemble 0x11 t i 0) = .ok (.frameEnc t i) :=
  decode_assemble (o := .frameEnc) rfl

/-- The word of a command is that command's: one row of R83 after the other. -/
theorem decode_encode (i : Instr) : decode (encode i) = .ok i := by
  cases i with
  | charEnc d => exact decode_charEnc d
  | charDec b p => exact decode_charDec b p
  | crc16 => exact decode_crc16
  | frameSize => exact decode_frameSize
  | frameEnc t i => exact decode_frameEnc t i
  | frameDec => exact decode_frameDec
  | rtrInit a n => exact decode_rtrInit a n
  | rtrAddRoute e o => exact decode_rtrAddRoute e o
  | rtrOpenCh c => exact decode_rtrOpenCh c
  | rtrRoute t => exact decode_rtrRoute t
  | rtrReadRoute e => exact decode_rtrReadRoute e
  | rtrReadCfg => exact decode_rtrReadCfg
  | vcRead c => exact decode_vcRead c
  | linkInit q k => exact decode_linkInit q k
  | linkSetState q st => exact decode_linkSetState q st
  | linkRead q l => exact decode_linkRead q l

/-- Settles O1: row by row, the operand fields of a command's word are its operands (`decode_encode`). -/
theorem decodeAfterEncodeGivesTheCommand : Obligations.DecodeAfterEncodeGivesTheCommand := by
  unfold Obligations.DecodeAfterEncodeGivesTheCommand
  exact decode_encode

/-! ### A word from its command -/

/-- A byte whose seven upper bits are zero is its lowest bit. -/
theorem setWidth_lowBit : ∀ b : Byte, b.extractLsb' 1 7 = 0 → (b.extractLsb' 0 1).setWidth 8 = b := by decide

/-- A byte whose five upper bits are zero is its three lowest. -/
theorem setWidth_lowBits : ∀ b : Byte, b.extractLsb' 3 5 = 0 → (b.extractLsb' 0 3).setWidth 8 = b := by decide

/-- With the must-be-zero bits zero, a command keeps every bit of the fields it was taken from. -/
theorem encode_operandsOf {f1 f2 f3 : Byte} {o : Opcode} (h : mustBeZero f1 f2 f3 o = true) :
    encode (operandsOf f1 f2 o) = assemble o.byte f1 f2 f3 := by
  cases o <;> simp only [mustBeZero, Bool.and_eq_true, beq_iff_eq] at h
  case charEnc | rtrOpenCh | rtrRoute | rtrReadRoute | vcRead =>
    obtain ⟨rfl, rfl⟩ := h
    rfl
  case crc16 | frameSize | frameDec | rtrReadCfg =>
    obtain ⟨⟨rfl, rfl⟩, rfl⟩ := h
    rfl
  case frameEnc | rtrInit | rtrAddRoute | linkRead =>
    subst h
    rfl
  case charDec | linkInit =>
    obtain ⟨hzero, rfl⟩ := h
    rw [operandsOf, encode, setWidth_lowBit f2 hzero]
  case linkSetState =>
    obtain ⟨hzero, rfl⟩ := h
    rw [operandsOf, encode, setWidth_lowBits f2 hzero]

/-- Settles O2: the word is its four fields, and the command keeps them all (`encode_operandsOf`). -/
theorem encodeAfterDecodeGivesTheWord : Obligations.EncodeAfterDecodeGivesTheWord := by
  unfold Obligations.EncodeAfterDecodeGivesTheWord
  intro w i h
  obtain ⟨o, hopc, hzero, rfl⟩ := decodeFields_ok.1 h
  rw [encode_operandsOf hzero, ← hopc, assemble_fields]

/-! ### Rows of the opcode map -/

theorem Opcode.byte_injective : Function.Injective Opcode.byte := fun o o' h => by
  have hfound := opcodeOf_byte o
  rw [h, opcodeOf_byte] at hfound
  exact (Option.some.inj hfound).symm

/-- Settles O4: a row accepts only words with its own opcode (`Opcode.row_accepts`), and opcodes have different numbers. -/
theorem opcodeRowsDoNotOverlap : Obligations.OpcodeRowsDoNotOverlap := by
  unfold Obligations.OpcodeRowsDoNotOverlap
  rintro r hr r' hr' hne w ⟨h, h'⟩
  obtain ⟨o, rfl⟩ := mem_opTable.1 hr
  obtain ⟨o', rfl⟩ := mem_opTable.1 hr'
  obtain ⟨hopc, -⟩ := (o.row_accepts w).1 h
  obtain ⟨hopc', -⟩ := (o'.row_accepts w).1 h'
  exact hne (congrArg Opcode.row (Opcode.byte_injective (hopc.symm.trans hopc')))

/-- Settles O5: each word is put together from its opcode and operand fields. -/
theorem exampleWordsDecode : Obligations.ExampleWordsDecode := by
  unfold Obligations.ExampleWordsDecode
  exact ⟨decode_charEnc 0x41, decode_charDec 0x41 1, decode_crc16, decode_frameEnc 0x02 0x01, decode_rtrInit 0x01 12,
    decode_linkInit 0 1, decode_linkSetState 0 3⟩

end Sys2Proof
end

section
/-! PROOFS. The invariant: reset has it, a command's one write keeps each part of it, and so does every other action of a
step (10_state.md R30 to R46, 60_exceptions.md R250, R255). With it, that no step changes the parameters (R7). -/

namespace Sys2Proof.Machine

/-! ### Reset has the invariant, over canonical memory -/

theorem reset_getLink (p : Fin 8) : State.reset.link[p] = Link.atReset p := by
  simp [State.reset]

theorem reset_getChannel (c : Fin 16) : State.reset.vc[c] = Channel.initial := by
  simp [State.reset]

theorem reset_getRoute (d : Fin 8) : State.reset.route[d] = routeEmpty := by
  simp [State.reset]

theorem afterReset_inv {s : State} (hwf : s.mem.wf = true) : s.afterReset.Inv := by
  refine ⟨hwf, Nat.zero_le _, fun d => .inl (reset_getRoute d), ⟨.ok, by decide, rfl⟩, fun p => ?_, fun c => ?_⟩
  · rw [State.afterReset_link, reset_getLink]
    exact ⟨rfl, rfl, rfl, rfl, rfl⟩
  · rw [State.afterReset_vc, reset_getChannel]
    rfl

/-- Settles O56: the reset state is the reset of itself (`afterReset_inv`), over the empty memory. -/
theorem resetSatisfiesTheInvariant : Obligations.ResetSatisfiesTheInvariant := by
  unfold Obligations.ResetSatisfiesTheInvariant
  exact afterReset_inv (s := State.reset) rfl

/-! ### The write of a command keeps each part -/

/-- A link entry written with these fields as the invariant asks keeps the file so. -/
theorem setLink_linksOk {s : State} (hs : s.LinksOk) {q : Fin 8} {k : Link} (hid : k.portId = (s.link[q]).portId)
    (hrx : k.rxPackets = (s.link[q]).rxPackets) (herr : k.errors = (s.link[q]).errors)
    (hcredits : k.rxCredits = k.maxRxCredits) (htx : k.txCredits = 0) : (s.setLink q k).LinksOk := by
  intro p
  rw [State.setLink_link]
  by_cases hpq : p = q
  · subst hpq
    obtain ⟨hid', hrx', herr', -, -⟩ := hs p
    have hk : (s.link.set p k)[p] = k := Vector.getElem_set_self p.isLt
    rw [hk]
    exact ⟨hid.trans hid', hrx.trans hrx', herr.trans herr', hcredits, htx⟩
  · rw [vector_getElem_set_of_ne _ _ _ hpq]
    exact hs p

theorem initRouter_linksOk {s : State} (hs : s.LinksOk) (a n : Byte) : (s.initRouter a n).LinksOk := by
  intro p
  obtain ⟨-, -, -, hcredits, htx⟩ := hs p
  rw [initRouter_getLink]
  exact ⟨rfl, rfl, rfl, hcredits, htx⟩

theorem setRoute_routesOk {s : State} (hs : s.RoutesOk) {d : Fin 8} {o : Byte} (ho : o < s.numPorts) :
    (s.setRoute d o).RoutesOk := by
  intro d'
  rw [State.setRoute_route, State.setRoute_numPorts]
  by_cases hd : d' = d
  · subst hd
    have hstored : (s.route.set d' o)[d'] = o := Vector.getElem_set_self d'.isLt
    rw [hstored]
    exact .inr ho
  · rw [vector_getElem_set_of_ne _ _ _ hd]
    exact hs d'

theorem openChannel_channelsOk {s : State} (hs : s.ChannelsOk) (c : Fin 16) : (s.openChannel c).ChannelsOk := by
  intro c'
  rw [State.openChannel_vc]
  by_cases hc : c' = c
  · subst hc
    have hopened : (s.vc.set c' { s.vc[c'] with active := true })[c'] = { s.vc[c'] with active := true } :=
      Vector.getElem_set_self c'.isLt
    rw [hopened]
    exact hs c'
  · rw [vector_getElem_set_of_ne _ _ _ hc]
    exact hs c'

/-- The one write of a command keeps the invariant. -/
theorem CommandEffect.inv {i : Instr} {s u : State} (h : CommandEffect i s u) (hs : s.Inv) : u.Inv := by
  obtain ⟨hmem, hports, hroutes, hstatus, hlinks, hchannels⟩ := hs
  cases h with
  | nothing => exact ⟨hmem, hports, hroutes, hstatus, hlinks, hchannels⟩
  | frame t p _ _ hb =>
    have hbound := admitted_bound hb (by simp [frameSize_eq])
    exact ⟨wf_frameWrites hmem hbound, hports, hroutes, hstatus, hlinks, hchannels⟩
  | routerInit a n =>
    have hclamped : (clampPorts n).toNat ≤ 8 := toNat_clampPorts n ▸ Nat.min_le_right ..
    refine ⟨hmem, hclamped, fun d => .inl (initRouter_getRoute s a n d), hstatus, initRouter_linksOk hlinks a n,
      fun c => ?_⟩
    rw [initRouter_getChannel]
    rfl
  | addRoute e o _ d hd ho => exact ⟨hmem, hports, setRoute_routesOk hroutes ho, hstatus, hlinks, hchannels⟩
  | openChannel c _ ch => exact ⟨hmem, hports, hroutes, hstatus, hlinks, openChannel_channelsOk hchannels ch⟩
  | countTx t _ q =>
    obtain ⟨-, -, -, hcredits, htx⟩ := hlinks q
    exact ⟨hmem, hports, hroutes, hstatus, setLink_linksOk hlinks rfl rfl rfl hcredits htx, hchannels⟩
  | configure q k _ p => exact ⟨hmem, hports, hroutes, hstatus, setLink_linksOk hlinks rfl rfl rfl rfl rfl, hchannels⟩
  | linkState q st _ p v =>
    obtain ⟨-, -, -, hcredits, htx⟩ := hlinks p
    exact ⟨hmem, hports, hroutes, hstatus, setLink_linksOk hlinks rfl rfl rfl hcredits htx, hchannels⟩

/-! ### So does a started command -/

theorem finish_inv {s : State} (hs : s.Inv) {c : Code} (hc : c ∈ Code.written) (r0 r1 r2 : Word) :
    (s.finish c r0 r1 r2).Inv := by
  obtain ⟨hmem, hports, hroutes, -, hlinks, hchannels⟩ := hs
  exact ⟨hmem, hports, hroutes, ⟨c, hc, rfl⟩, hlinks, hchannels⟩

theorem runWord_inv {w : Word} {s t : State} (hs : s.Inv) (h : runWord w s = .next t) : t.Inv := by
  obtain ⟨i, -, c, hc, r0, r1, r2, u, hu, -, rfl⟩ | ⟨-, rfl⟩ := runWord_next h
  · exact finish_inv (hu.inv hs) (codesOf_subset_written i hc) r0 r1 r2
  · exact finish_inv hs (by decide) 0 0 0

theorem startCommand_inv {w : Word} {s t : State} (hs : s.Inv) (h : startCommand w s = .next t) : t.Inv := by
  obtain ⟨u, hu, -, rfl⟩ := startCommand_next h
  have hu' : u.Inv := runWord_inv (s := s.setCmd w) hs hu
  exact hu'

/-! ### Reset during a command (R281) -/

theorem runWord_of_decode {w : Word} {i : Instr} (h : decode w = .ok i) (s : State) : runWord w s = exec i s := by
  unfold runWord
  rw [h]

/-- Only a `FRAME_ENC` that ended `OK` has a write footprint: its destination, which ends inside the 32-bit space. -/
theorem writeFootprint_some {w : Word} {s u : State} {a n : Nat} (hu : startCommand w s = .next u)
    (h : writeFootprint w s u = some (a, n)) :
    (∃ d p, decode w = .ok (.frameEnc d p)) ∧ u.status = Code.ok.toByte ∧ a = s.arg2.toNat ∧
      n = s.arg1.toNat + 4 ∧ s.arg1.toNat < 65536 ∧ a + n ≤ addrTop := by
  unfold writeFootprint at h
  split at h
  · rename_i d p hw
    split at h
    · rename_i hok
      cases h
      obtain ⟨v, hv, -, rfl⟩ := startCommand_next hu
      have hexec : execFrameEnc d p (s.setCmd w) = .next v := (runWord_of_decode hw _).symm.trans hv
      obtain ⟨-, hlen, -, hadmitted, -, -⟩ := execFrameEnc_ok hexec hok
      rw [State.setCmd_arg1] at hlen
      have hn : frameSize s.payloadLen = s.arg1.toNat + 4 := by
        rw [frameSize_eq, State.payloadLen, toNat_lowHalf hlen]
      exact ⟨⟨d, p, hw⟩, hok, rfl, hn, hlen, hn ▸ admitted_bound hadmitted (Nat.succ_ne_zero _)⟩
    · cases h
  · cases h

theorem resetDuringCommand_inv {w : Word} {s t : State} (hs : s.Inv) (h : resetDuringCommand w s = .next t) :
    t.Inv := by
  obtain ⟨hwf, -⟩ := hs
  obtain ⟨-, rfl | ⟨u, a, n, hu, hf, rfl⟩⟩ := resetDuringCommand_next h
  · exact afterReset_inv hwf
  · obtain ⟨-, -, -, -, -, hbound⟩ := writeFootprint_some hu hf
    exact afterReset_inv (s := s.smearRange a n) (Memory.wf_smear hwf hbound)

/-! ### And every step -/

/-- Storing an operand touches nothing of the invariant. -/
theorem hostSetArg_inv {s : State} (hs : s.Inv) (k : Fin 4) (w : Word) : (s.hostSetArg k w).Inv := by
  fin_cases k <;> exact hs

/-- The host's write of one byte keeps memory canonical, and nothing else is in the invariant. -/
theorem memoryWrite_inv {s : State} (hs : s.Inv) (a : Word) (v : Byte) (k : HostSection) :
    ((s.setMem (s.mem.write a.toNat v)).setSection k).Inv := by
  obtain ⟨hwf, hrest⟩ := hs
  exact ⟨Memory.wf_write hwf a.isLt, hrest⟩

/-- Settles O57: a started command keeps the invariant because its one write does (`CommandEffect.inv`) and its code is a
written one; a reset, during a command or not, sets it up again; every other action keeps it. -/
theorem stepKeepsTheInvariant : Obligations.StepKeepsTheInvariant := by
  unfold Obligations.StepKeepsTheInvariant
  intro s t hs h
  cases step_next h with
  | idle => exact hs
  | command rest w _ _ ht => exact startCommand_inv (s := s.setHost rest) hs ht
  | operand rest k w => exact hostSetArg_inv (s := s.setHost rest) hs k w
  | ignoredWrite => exact hs
  | registerRead => exact hs
  | memoryWrite rest a v => exact memoryWrite_inv (s := s.setHost rest) hs a v _
  | memoryRead => exact hs
  | reset rest =>
    obtain ⟨hwf, -⟩ := hs
    exact afterReset_inv (s := s.setHost rest) hwf
  | resetDuring rest w _ _ ht => exact resetDuringCommand_inv (s := s.setHost rest) hs ht

/-! ### The parameters -/

theorem startCommand_cfg {w : Word} {s t : State} (h : startCommand w s = .next t) : t.cfg = s.cfg := by
  obtain ⟨u, hu, -, rfl⟩ := startCommand_next h
  obtain ⟨-, -, -, -, -, hcfg, -⟩ := runWord_sameHostSide hu
  exact hcfg

/-- Settles O58: of the actions of a step only a command could write the parameters, and no command does. -/
theorem stepKeepsTheParameters : Obligations.StepKeepsTheParameters := by
  unfold Obligations.StepKeepsTheParameters
  intro s t h
  cases step_next h with
  | command rest w _ _ ht => exact startCommand_cfg (s := s.setHost rest) ht
  | operand rest k w => exact State.setArg_cfg ..
  | resetDuring rest w _ _ ht =>
    obtain ⟨-, rfl | ⟨_, _, _, -, -, rfl⟩⟩ := resetDuringCommand_next ht <;> rfl
  | idle | ignoredWrite | registerRead | memoryWrite | memoryRead | reset => rfl

/-! ### Reset (R280, R281) -/

theorem holdsResetValues_afterReset (s : State) : HoldsResetValues s.afterReset := by
  refine ⟨rfl, rfl, rfl, rfl, rfl, rfl, rfl, rfl, rfl, rfl, rfl, reset_getRoute, fun c => ?_, reset_getLink⟩
  rw [State.afterReset_vc, reset_getChannel]
  exact ⟨rfl, rfl⟩

/-- Settles O53: the step is `afterReset`, read field by field. -/
theorem resetSetsEveryRegister : Obligations.ResetSetsEveryRegister := by
  unfold Obligations.ResetSetsEveryRegister
  exact fun s rest hs => ⟨_, step_pending hs, holdsResetValues_afterReset _, rfl, rfl, rfl⟩

/-- A reset during a command goes on unless the command is refused. -/
theorem resetDuringCommand_of_not_refused {w : Word} {s : State} (h : ∀ r, startCommand w s ≠ .refused r) :
    ∃ t, resetDuringCommand w s = .next t := by
  unfold resetDuringCommand
  split
  · rename_i r hr
    exact absurd hr (h r)
  · exact ⟨_, rfl⟩
  · split <;> exact ⟨_, rfl⟩

/-- Settles O55: a reset during a command is `afterReset` over memory as it was, or over memory with the write footprint
drawn anew (`resetDuringCommand_next`), and then the command was a `FRAME_ENC` that would have ended `OK`
(`writeFootprint_some`). -/
theorem resetAbandonsTheRunningCommand : Obligations.ResetAbandonsTheRunningCommand := by
  unfold Obligations.ResetAbandonsTheRunningCommand
  intro s w rest hwf hs hnot
  obtain ⟨t, ht⟩ := resetDuringCommand_of_not_refused hnot
  have hstep : step s = .next t := (step_pending hs).trans ht
  obtain ⟨-, rfl | ⟨u, a, n, hu, hf, rfl⟩⟩ := resetDuringCommand_next ht
  · exact ⟨_, hstep, holdsResetValues_afterReset _, rfl, rfl, fun _ => rfl, fun _ _ _ => rfl, fun _ _ => rfl,
      fun _ _ _ _ _ => rfl⟩
  · obtain ⟨⟨d, p, hw⟩, hok, rfl, rfl, hlen, hbound⟩ := writeFootprint_some hu hf
    refine ⟨_, hstep, holdsResetValues_afterReset _, rfl, rfl, fun hother => absurd hw (hother d p),
      fun v hv hne => ?_, fun f hfault => ?_, fun _ _ _ x hx => ?_⟩
    · rw [hu] at hv
      cases hv
      exact absurd hok hne
    · rw [hu] at hfault
      cases hfault
    · rw [State.setHost_arg1] at hlen
      rw [← lowHalf_eq_setWidth, toNat_lowHalf hlen] at hx
      exact Memory.read_smear_outside hwf hbound hx

end Sys2Proof.Machine
end

section
/-! PROOFS. Every command at once: the codes it gives (60_exceptions.md R251), which command writes which state (10_state.md
R30 to R43), and what a command does not read: `STATUS` and the results (R24), the internal state for the codec, CRC and
frame commands (R46), the virtual channels for routing (43_router.md R187). -/

namespace Sys2Proof.Machine

/-- Settles O14: a command that ends does so by one `finish` with a code of its row (`exec_next`). -/
theorem commandsGiveOnlyTheirCodes : Obligations.CommandsGiveOnlyTheirCodes := by
  unfold Obligations.CommandsGiveOnlyTheirCodes
  intro i s t h
  obtain ⟨c, hc, -, -, -, -, -, -, rfl⟩ := exec_next h
  exact ⟨c, hc, rfl⟩

/-! ### The writers of each piece of state -/

/-- What a link entry was replaced by shows in a field only if the new entry differs there. -/
theorem setLink_field_of_eq {α : Type} (f : Link → α) {s : State} {q : Fin 8} {k : Link} (hk : f k = f s.link[q])
    (p : Fin 8) : f (s.setLink q k).link[p] = f s.link[p] := by
  rw [State.setLink_link]
  by_cases hpq : p = q
  · subst hpq
    exact (congrArg f (Vector.getElem_set_self p.isLt)).trans hk
  · rw [vector_getElem_set_of_ne _ _ _ hpq]

/-- What `RTR_INIT` keeps of an entry. -/
theorem initRouter_field_of_eq {α : Type} (f : Link → α) (hf : ∀ (k : Link) (p : Fin 8), f (k.routerInit p) = f k)
    (s : State) (a n : Byte) (p : Fin 8) : f (s.initRouter a n).link[p] = f s.link[p] := by
  rw [initRouter_getLink]
  exact hf _ p

section writers
variable {i : Instr} {s u : State}

theorem CommandEffect.writer_config (h : CommandEffect i s u)
    (hne : u.deviceAddr ≠ s.deviceAddr ∨ u.numPorts ≠ s.numPorts) : ∃ a n, i = .rtrInit a n := by
  cases h with
  | routerInit a n => exact ⟨a, n, rfl⟩
  | _ => simp at hne

theorem CommandEffect.writer_route (h : CommandEffect i s u) (hne : u.route ≠ s.route) :
    (∃ a n, i = .rtrInit a n) ∨ ∃ e o, i = .rtrAddRoute e o := by
  cases h with
  | routerInit a n => exact .inl ⟨a, n, rfl⟩
  | addRoute e o => exact .inr ⟨e, o, rfl⟩
  | _ => exact absurd rfl hne

theorem CommandEffect.writer_vc (h : CommandEffect i s u) (hne : u.vc ≠ s.vc) :
    (∃ a n, i = .rtrInit a n) ∨ ∃ c, i = .rtrOpenCh c := by
  cases h with
  | routerInit a n => exact .inl ⟨a, n, rfl⟩
  | openChannel c => exact .inr ⟨c, rfl⟩
  | _ => exact absurd rfl hne

theorem CommandEffect.writer_linkState (h : CommandEffect i s u) {p : Fin 8}
    (hne : (u.link[p]).state ≠ (s.link[p]).state) :
    (∃ a n, i = .rtrInit a n) ∨ (∃ q k, i = .linkInit q k) ∨ ∃ q st, i = .linkSetState q st := by
  cases h with
  | routerInit a n => exact .inl ⟨a, n, rfl⟩
  | configure q k => exact .inr (.inl ⟨q, k, rfl⟩)
  | linkState q st => exact .inr (.inr ⟨q, st, rfl⟩)
  | countTx => exact absurd (setLink_field_of_eq Link.state (Link.countTx_state _) p) hne
  | _ => exact absurd rfl hne

theorem CommandEffect.writer_txPackets (h : CommandEffect i s u) {p : Fin 8}
    (hne : (u.link[p]).txPackets ≠ (s.link[p]).txPackets) : (∃ a n, i = .rtrInit a n) ∨ ∃ d, i = .rtrRoute d := by
  cases h with
  | routerInit a n => exact .inl ⟨a, n, rfl⟩
  | countTx d => exact .inr ⟨d, rfl⟩
  | configure => exact absurd (setLink_field_of_eq Link.txPackets (Link.configure_txPackets ..) p) hne
  | linkState => exact absurd (setLink_field_of_eq Link.txPackets (Link.withState_txPackets ..) p) hne
  | _ => exact absurd rfl hne

/-- The configuration of a link and its credits (R40), the fields that only `LINK_INIT` writes. -/
def Link.configuration (k : Link) : Word × Word × Half × BitVec 1 × Half × Half :=
  (k.bitRate, k.disconnectTimeout, k.maxRxCredits, k.crcEnable, k.rxCredits, k.txCredits)

theorem Link.configuration_ne {k k' : Link} : k.configuration ≠ k'.configuration ↔
    k.bitRate ≠ k'.bitRate ∨ k.disconnectTimeout ≠ k'.disconnectTimeout ∨ k.maxRxCredits ≠ k'.maxRxCredits ∨
      k.crcEnable ≠ k'.crcEnable ∨ k.rxCredits ≠ k'.rxCredits ∨ k.txCredits ≠ k'.txCredits := by
  simp only [Link.configuration, ne_eq, Prod.mk.injEq, not_and_or]

theorem CommandEffect.writer_configuration (h : CommandEffect i s u) {p : Fin 8}
    (hne : (u.link[p]).configuration ≠ (s.link[p]).configuration) : ∃ q k, i = .linkInit q k := by
  cases h with
  | configure q k => exact ⟨q, k, rfl⟩
  | routerInit a n => exact absurd (initRouter_field_of_eq Link.configuration (fun _ _ => rfl) s a n p) hne
  | countTx | linkState => exact absurd (setLink_field_of_eq Link.configuration (by rfl) p) hne
  | _ => exact absurd rfl hne

/-- The fields of a link that only `RTR_INIT` writes (R40, R44). -/
def Link.identity (k : Link) : Byte × Word × Word := (k.portId, k.rxPackets, k.errors)

theorem Link.identity_ne {k k' : Link} : k.identity ≠ k'.identity ↔
    k.portId ≠ k'.portId ∨ k.rxPackets ≠ k'.rxPackets ∨ k.errors ≠ k'.errors := by
  simp only [Link.identity, ne_eq, Prod.mk.injEq, not_and_or]

theorem CommandEffect.writer_identity (h : CommandEffect i s u) {p : Fin 8}
    (hne : (u.link[p]).identity ≠ (s.link[p]).identity) : ∃ a n, i = .rtrInit a n := by
  cases h with
  | routerInit a n => exact ⟨a, n, rfl⟩
  | countTx | configure | linkState => exact absurd (setLink_field_of_eq Link.identity (by rfl) p) hne
  | _ => exact absurd rfl hne

theorem CommandEffect.writer_mem (h : CommandEffect i s u) (hne : u.mem ≠ s.mem) : ∃ d p, i = .frameEnc d p := by
  cases h with
  | frame d p => exact ⟨d, p, rfl⟩
  | _ => exact absurd rfl hne

end writers

/-- Settles O19: a command makes at most its one write (`exec_next`), and each piece of state is followed through the writes
there are. -/
theorem eachStateHasItsWriters : Obligations.EachStateHasItsWriters := by
  unfold Obligations.EachStateHasItsWriters
  intro i s t h
  obtain ⟨c, -, r0, r1, r2, u, hu, -, rfl⟩ := exec_next h
  exact ⟨hu.writer_config, hu.writer_route, hu.writer_vc, fun p => hu.writer_linkState, fun p => hu.writer_txPackets,
    fun p hne => hu.writer_configuration (Link.configuration_ne.2 hne),
    fun p hne => hu.writer_identity (Link.identity_ne.2 hne), hu.writer_mem⟩

/-! ### `STATUS` and the results are not read (R24, R47) -/

/-- Command by command: none names `STATUS` or a result, and each ends by its own `finish`. -/
theorem exec_finish (i : Instr) (s : State) (c : Code) (r0 r1 r2 : Word) :
    exec i (s.finish c r0 r1 r2) = exec i s := by
  cases i <;> rfl

/-- Settles O17: neither a command (`exec_finish`) nor the report of an illegal word reads what a `finish` writes. -/
theorem noCommandReadsStatusOrResults : Obligations.NoCommandReadsStatusOrResults := by
  unfold Obligations.NoCommandReadsStatusOrResults
  intro w s c r0 r1 r2
  unfold runWord
  split
  · exact exec_finish _ s c r0 r1 r2
  · rfl

/-! ### The internal state is not read (R46, R110, R180) -/

section withInternal
variable (s : State) (dev np : Byte) (route : Vector Byte 8) (vc : Vector Channel 16) (link : Vector Link 8)

theorem withInternal_cfg : (s.withInternal dev np route vc link).cfg = s.cfg := rfl

theorem execCharDec_withInternal (b : Byte) (p : BitVec 1) :
    execCharDec b p (s.withInternal dev np route vc link) =
      mapNext (·.withInternal dev np route vc link) (execCharDec b p s) := by
  unfold execCharDec
  rw [withInternal_cfg]
  split
  · rfl
  · split <;> rfl

theorem execCrc16_withInternal :
    execCrc16 (s.withInternal dev np route vc link) =
      mapNext (·.withInternal dev np route vc link) (execCrc16 s) := by
  simp only [execCrc16, apply_ite (mapNext _), ← withFootprint_mapNext _ (withInternal_cfg s dev np route vc link)]
  rfl

theorem execFrameSize_withInternal :
    execFrameSize (s.withInternal dev np route vc link) =
      mapNext (·.withInternal dev np route vc link) (execFrameSize s) := by
  simp only [execFrameSize, apply_ite (mapNext _)]
  rfl

theorem execFrameEnc_withInternal (d p : Byte) :
    execFrameEnc d p (s.withInternal dev np route vc link) =
      mapNext (·.withInternal dev np route vc link) (execFrameEnc d p s) := by
  simp only [execFrameEnc, apply_ite (mapNext _),
    ← withFootprint_mapNext _ (withInternal_cfg s dev np route vc link)]
  rfl

theorem execFrameDec_withInternal :
    execFrameDec (s.withInternal dev np route vc link) =
      mapNext (·.withInternal dev np route vc link) (execFrameDec s) := by
  simp only [execFrameDec, apply_ite (mapNext _),
    ← withFootprint_mapNext _ (withInternal_cfg s dev np route vc link)]
  rfl

end withInternal

/-- Settles O20: each of the six commands commutes with any replacement of the internal state. -/
theorem codecAndFramesIgnoreInternalState : Obligations.CodecAndFramesIgnoreInternalState := by
  unfold Obligations.CodecAndFramesIgnoreInternalState
  rintro i s dev np route vc link (⟨d, rfl⟩ | ⟨b, p, rfl⟩ | rfl | rfl | ⟨d, p, rfl⟩ | rfl)
  · rfl
  · exact execCharDec_withInternal s dev np route vc link b p
  · exact execCrc16_withInternal s dev np route vc link
  · exact execFrameSize_withInternal s dev np route vc link
  · exact execFrameEnc_withInternal s dev np route vc link d p
  · exact execFrameDec_withInternal s dev np route vc link

/-! ### Routing reads no channel (R33, R187) -/

theorem routeVia_withChannels (s : State) (p : Byte) (vc : Vector Channel 16) :
    routeVia p { s with vc := vc } = mapNext (fun t => { t with vc := vc }) (routeVia p s) := by
  simp only [routeVia]
  split
  · rfl
  · split <;> rfl

/-- Settles O21: the checks of `RTR_ROUTE` read the address, the routes and the links, and its one write is of a link. -/
theorem routingIgnoresVirtualChannels : Obligations.RoutingIgnoresVirtualChannels := by
  unfold Obligations.RoutingIgnoresVirtualChannels
  intro s d vc
  simp only [exec, execRtrRoute]
  split
  · rfl
  split
  · rfl
  split
  · rfl
  · exact routeVia_withChannels s _ vc

end Sys2Proof.Machine
end

section
/-! PROOFS. One step, action by action (10_state.md R21 to R25, 20_memory.md R66 to R75): what each action of the host does
and what stops it. -/

namespace Sys2Proof.Machine

/-- Settles O8: with nothing pending a step is `.next` of the state. -/
theorem idleBlockKeepsItsState : Obligations.IdleBlockKeepsItsState := by
  unfold Obligations.IdleBlockKeepsItsState
  exact fun s => step_idle

/-! ### The write of `CMD` -/

theorem decode_error {w : Word} (h : ∀ i, decode w ≠ .ok i) : ∃ e, decode w = .error e := by
  cases hw : decode w with
  | ok i => exact absurd hw (h i)
  | error e => exact ⟨e, rfl⟩

/-- A started command word that decodes is its command, with what the host's section adds (R22, R286). -/
theorem startCommand_of_decode {w : Word} {i : Instr} (h : decode w = .ok i) (s : State) :
    startCommand w s = endCommand w s (exec i (s.setCmd w)) := by
  rw [startCommand, runWord_of_decode h]

theorem endCommand_next {w : Word} {i : Instr} (h : decode w = .ok i) (s t : State) :
    endCommand w s (.next t) =
      if s.hostSection.breaks (argsRead i) (readsOf i s t) then .refused .criticalSection
      else .next (t.setSection (s.hostSection.afterCommand (argsRead i) (readsOf i s t))) := by
  rw [endCommand, namedArgs_ok h, readFootprint_ok h]

/-- The pending actions are no part of what a command reads. -/
theorem readsOf_setHost (i : Instr) (s t : State) (rest : List HostAction) :
    readsOf i (s.setHost rest) t = readsOf i s t := rfl

section command
variable {s : State} {w : Word} {rest : List HostAction} {i : Instr} (hs : s.host = cmdWrite s.cfg w :: rest)
  (hw : decode w = .ok i)
include hs hw

theorem step_command : step s = endCommand w (s.setHost rest) (exec i ((s.setHost rest).setCmd w)) :=
  (step_cmdWrite hs).trans (startCommand_of_decode hw _)

/-- The step of a command that ends: it goes on, or the host had broken its section. -/
theorem step_command_next {t : State} (ht : exec i ((s.setHost rest).setCmd w) = .next t) :
    step s = if s.hostSection.breaks (argsRead i) (readsOf i s t) then .refused .criticalSection
      else .next (t.setSection (s.hostSection.afterCommand (argsRead i) (readsOf i s t))) := by
  rw [step_command hs hw, ht, endCommand_next hw, readsOf_setHost, State.setHost_hostSection]

end command

/-- Settles O6: the write of `CMD` starts the decoded command (`step_command`), whose stops stay, and whose end goes through
the host's section (`step_command_next`). -/
theorem stepRunsTheDecodedCommand : Obligations.StepRunsTheDecodedCommand := by
  unfold Obligations.StepRunsTheDecodedCommand
  intro s w rest i hs hw
  refine ⟨rfl, rfl, fun f hf => ?_, fun r hr => ?_, fun t ht => ⟨fun hb => ?_, fun hb => ?_, fun hnone => ?_⟩⟩
  · rw [step_command hs hw, hf, endCommand]
  · rw [step_command hs hw, hr, endCommand]
  · rw [step_command_next hs hw ht, hb, if_neg Bool.false_ne_true]
  · rw [step_command_next hs hw ht, hb, if_pos rfl]
  · exact HostSection.breaks_of_nil hnone _ _

/-- A command that names no register and reads nothing closes the section. -/
theorem HostSection.afterCommand_nil (h : HostSection) : h.afterCommand [] [] = .closed := by
  rw [HostSection.afterCommand, ite_self]
  rfl

/-- A started word that is no command reports it and closes the host's section (R256). -/
theorem startCommand_illegal {w : Word} (h : ∀ i, decode w ≠ .ok i) (s : State) :
    startCommand w s = .next (((s.setCmd w).finish .illegalCommand 0 0 0).setSection .closed) := by
  obtain ⟨e, he⟩ := decode_error h
  have hrun : runWord w (s.setCmd w) = .next ((s.setCmd w).finish .illegalCommand 0 0 0) := by simp [runWord, he]
  have hreads (t : State) : readFootprint w s t = [] := by simp [readFootprint, he]
  have hnamed : namedArgs w = [] := by simp [namedArgs, he]
  rw [startCommand, hrun, endCommand, hreads, hnamed, HostSection.breaks_nil, if_neg Bool.false_ne_true,
    HostSection.afterCommand_nil]

/-- Settles O7: the step starts a word that is no command, which is one `finish` (`startCommand_illegal`). -/
theorem illegalWordOnlyReports : Obligations.IllegalWordOnlyReports := by
  unfold Obligations.IllegalWordOnlyReports
  intro s w rest hs hw
  exact ⟨_, (step_cmdWrite hs).trans (startCommand_illegal hw _),
    finish_only (((s.setHost rest).setCmd w).setSection .closed) .illegalCommand 0 0 0⟩

/-! ### The register window -/

section window
variable {s : State} {rest : List HostAction} {off : BitVec 6}

theorem isRegisterAccess_word (hal : off.extractLsb' 0 2 = 0) : isRegisterAccess off .word = true := by
  simp [isRegisterAccess, hal]

theorem isRegisterAccess_false {size : AccessSize} (h : size ≠ .word ∨ off.extractLsb' 0 2 ≠ 0) :
    isRegisterAccess off size = false := by
  simpa [isRegisterAccess, ← imp_iff_not_or] using h

/-- A 32-bit write at an aligned offset reaches the register. -/
theorem step_regWrite {w : Word} (hal : off.extractLsb' 0 2 = 0)
    (hs : s.host = .regWrite (s.cfg.base + off.setWidth 32) .word w :: rest) :
    step s = writeRegister off w (s.setHost rest) := by
  refine (step_pending hs).trans ((registerAccess_base_add (s.setHost rest) off .word _).trans ?_)
  rw [isRegisterAccess_word hal, if_pos rfl]

/-- So does a read. -/
theorem step_regRead (hal : off.extractLsb' 0 2 = 0)
    (hs : s.host = .regRead (s.cfg.base + off.setWidth 32) .word :: rest) :
    step s = hostRegRead off (s.setHost rest) := by
  refine (step_pending hs).trans ((registerAccess_base_add (s.setHost rest) off .word _).trans ?_)
  rw [isRegisterAccess_word hal, if_pos rfl]

theorem argOffset_aligned : ∀ k : Fin 4, (argOffset k).extractLsb' 0 2 = 0 := by decide

/-- The host's write of `ARGk` stores it and opens its section (R23, R286). -/
theorem step_argWrite {w : Word} (k : Fin 4)
    (hs : s.host = .regWrite (s.cfg.base + (argOffset k).setWidth 32) .word w :: rest) :
    step s = .next ((s.setHost rest).hostSetArg k w) := by
  rw [step_regWrite (argOffset_aligned k) hs]
  fin_cases k <;> rfl

/-- Offsets that take no write: `STATUS`, the results and the reserved ones (R21, R24). -/
theorem ignored_aligned (h : off = 0x04 ∨ (off.extractLsb' 0 2 = 0 ∧ 0x18 ≤ off.toNat)) :
    off.extractLsb' 0 2 = 0 := by
  obtain rfl | ⟨hal, -⟩ := h
  · rfl
  · exact hal

theorem writeRegister_ignored (h : off = 0x04 ∨ (off.extractLsb' 0 2 = 0 ∧ 0x18 ≤ off.toNat)) (w : Word) (s : State) :
    writeRegister off w s = .next s := by
  have hne : ∀ k : BitVec 6, k.toNat < 0x18 → k ≠ 0x04 → off ≠ k := by
    rintro k hk hk4 rfl
    obtain h4 | ⟨-, h18⟩ := h
    · exact hk4 h4
    · omega
  simp [writeRegister, hne]

theorem step_ignoredWrite {w : Word} (h : off = 0x04 ∨ (off.extractLsb' 0 2 = 0 ∧ 0x18 ≤ off.toNat))
    (hs : s.host = .regWrite (s.cfg.base + off.setWidth 32) .word w :: rest) : step s = .next (s.setHost rest) :=
  (step_regWrite (ignored_aligned h) hs).trans (writeRegister_ignored h w _)

/-- The reserved offsets read 0. -/
theorem readRegister_reserved (s : State) (h : 0x24 ≤ off.toNat) : s.readRegister off = 0 := by
  have hne : ∀ k : BitVec 6, k.toNat < 0x24 → off ≠ k := by
    rintro k hk rfl
    omega
  simp [State.readRegister, hne]

theorem isResult_iff : isResult off = true ↔ off = 0x04 ∨ off = 0x18 ∨ off = 0x1C ∨ off = 0x20 := by
  simp [isResult, or_assoc]

/-- A read is observed, unless it is of a result after the host's own write of what the command read (R286). -/
theorem hostRegRead_of_not_overwritten (h : isResult off = true → s.hostSection.overwritten = false) :
    hostRegRead off s = .next (s.observe (s.readRegister off)) := by
  refine if_neg fun hboth => ?_
  obtain ⟨hres, hover⟩ := Bool.and_eq_true_iff.1 hboth
  exact Bool.false_ne_true ((h hres).symm.trans hover)

end window

/-- Settles O9: the read reaches the register (`step_regRead`) and is observed; what it returns is `readRegister`, offset by
offset. -/
theorem registerReadReturnsTheMap : Obligations.RegisterReadReturnsTheMap := by
  unfold Obligations.RegisterReadReturnsTheMap
  intro s rest off hal hs hover
  have hread := hostRegRead_of_not_overwritten (s := s.setHost rest) fun hres => hover (isResult_iff.1 hres)
  refine ⟨s.readRegister off, (step_regRead hal hs).trans hread, ?_, ?_, ?_, ?_, ?_, ?_, ?_, ?_, ?_,
    readRegister_reserved s⟩ <;> rintro rfl <;> rfl

/-- Settles O10: the write reaches the register (`step_regWrite`), which stores an operand (`step_argWrite`) or ignores it
(`step_ignoredWrite`). -/
theorem registerWriteFollowsTheMap : Obligations.RegisterWriteFollowsTheMap := by
  unfold Obligations.RegisterWriteFollowsTheMap
  intro s rest off w hs
  refine ⟨?_, ?_, ?_, ?_, fun h => step_ignoredWrite h hs⟩
  · rintro rfl
    exact step_argWrite 0 hs
  · rintro rfl
    exact step_argWrite 1 hs
  · rintro rfl
    exact step_argWrite 2 hs
  · rintro rfl
    exact step_argWrite 3 hs

/-! ### Accesses that are refused (R67, R75, R286) -/

theorem registerAccess_outside {s : State} {d : Word} (h : 64 ≤ d.toNat) (size : AccessSize)
    (k : BitVec 6 → Host.Outcome State Fault Refusal) :
    registerAccess (s.cfg.base + d) size s k = .refused .outsideWindow := by
  have hd : s.cfg.base + d - s.cfg.base = d := by rw [BitVec.add_comm, BitVec.add_sub_cancel]
  have hout : windowOffset s.cfg (s.cfg.base + d) = none := by
    rw [windowOffset, hd, if_neg (Nat.not_lt.2 h)]
  rw [registerAccess, hout]

theorem registerAccess_narrow {s : State} {off : BitVec 6} {size : AccessSize}
    (h : size ≠ .word ∨ off.extractLsb' 0 2 ≠ 0) (k : BitVec 6 → Host.Outcome State Fault Refusal) :
    registerAccess (s.cfg.base + off.setWidth 32) size s k = .refused .registerAccess := by
  rw [registerAccess_base_add, isRegisterAccess_false h, if_neg Bool.false_ne_true]

/-- Settles O12: a read and a write are put to the same check of the access, which refuses both alike; another agent's
access is refused at once. -/
theorem breachesOfHostDutiesAreRefused : Obligations.BreachesOfHostDutiesAreRefused := by
  unfold Obligations.BreachesOfHostDutiesAreRefused
  intro s rest size w
  refine ⟨fun off h hs => ?_, fun d h hs => ?_, fun hs => step_pending hs⟩
  · obtain hs | hs := hs <;> exact (step_pending hs).trans (registerAccess_narrow (s := s.setHost rest) h _)
  · obtain hs | hs := hs <;> exact (step_pending hs).trans (registerAccess_outside (s := s.setHost rest) h size _)

/-! ### The host's accesses to memory (R63, R66, R70) -/

section hostByte
variable {s : State} {a : Word} (k : Host.Outcome State Fault Refusal)

theorem hostByteAccess_accessible (h : s.accessible a.toNat 1 = true) : hostByteAccess a s k = k := by
  simp only [State.accessible, Bool.and_eq_true, Bool.not_eq_true'] at h
  obtain ⟨hadmitted, hdevice⟩ := h
  rw [hostByteAccess, if_pos hadmitted, hdevice, if_neg Bool.false_ne_true]

theorem hostByteAccess_absent (h : admitted s.cfg a.toNat 1 = false) :
    hostByteAccess a s k = .fault .hostBufferAbsent := by
  rw [hostByteAccess, h, if_neg Bool.false_ne_true]

theorem hostByteAccess_device (h : admitted s.cfg a.toNat 1 = true) (hd : touchesDevice s.cfg a.toNat 1 = true) :
    hostByteAccess a s k = .refused .deviceBuffer := by
  rw [hostByteAccess, if_pos h, if_pos hd]

end hostByte

/-- The host's write of an accessible byte is made and noted. -/
theorem step_memWrite {s : State} {rest : List HostAction} {a : Word} {v : Byte}
    (ha : s.accessible a.toNat 1 = true) (hs : s.host = .memWrite a v :: rest) :
    step s = .next
      (((s.setHost rest).setMem (s.mem.write a.toNat v)).setSection (s.hostSection.noteWrite a.toNat)) :=
  (step_pending hs).trans (hostByteAccess_accessible (s := s.setHost rest) _ ha)

/-- Settles O13: both accesses are put to the same check, which an accessible byte passes and the others do not; a read after
the write is the law of memory (`Memory.read_write`). -/
theorem hostByteAccessesReadAndWriteMemory : Obligations.HostByteAccessesReadAndWriteMemory := by
  unfold Obligations.HostByteAccessesReadAndWriteMemory
  intro s rest a v hwf
  refine ⟨fun ha hs => ⟨_, step_memWrite ha hs, rfl, ?_, fun x hx => ?_⟩, fun ha hs => ?_, fun ha hs => ?_,
    fun ha hd hs => ?_⟩
  · exact (Memory.read_write hwf a.toNat v a.toNat).trans (if_pos rfl)
  · exact (Memory.read_write hwf a.toNat v x).trans (if_neg (by omega))
  · exact (step_pending hs).trans (hostByteAccess_accessible (s := s.setHost rest) _ ha)
  · obtain hs | hs := hs <;> exact (step_pending hs).trans (hostByteAccess_absent (s := s.setHost rest) _ ha)
  · obtain hs | hs := hs <;> exact (step_pending hs).trans (hostByteAccess_device (s := s.setHost rest) _ ha hd)

end Sys2Proof.Machine
end

section
/-! PROOFS. Characters and their parity bit (40_character_codec.md R111 to R117): parity is linear, so every bit of the byte
counts, and `CHAR_DEC` takes back what `CHAR_ENC` gave. -/

namespace Sys2Proof.Machine

/-! ### Parity (R111) -/

theorem parity_xor (x y : Byte) : parity (x ^^^ y) = parity x ^^^ parity y := by
  simp only [parity, BitVec.extractLsb'_xor]
  ac_rfl

theorem parity_oneBit : ∀ k : Fin 8, parity (BitVec.twoPow 8 k) = 1 := by decide

/-- Over one bit, exclusive or with 1 is the other bit. -/
theorem xor_one_ne : ∀ p : BitVec 1, p ^^^ 1 ≠ p := by decide

theorem parity_eq_count : ∀ b : Byte, (parity b).toNat = ((List.range 8).countP fun k => b.getLsbD k) % 2 := by
  decide

/-- Settles O24: the count is checked byte by byte; a flipped bit adds the parity of one bit (`parity_xor`), which is 1. -/
theorem parityMakesTheWeightEven : Obligations.ParityMakesTheWeightEven := by
  unfold Obligations.ParityMakesTheWeightEven
  refine fun b => ⟨parity_eq_count b, fun k => ?_⟩
  rw [parity_xor, parity_oneBit]
  exact xor_one_ne _

/-! ### The round trip (R117) -/

/-- A control value has its marker (R112). -/
theorem ctrlMarker_of_lt (c : CtrlMap) {b : Byte} (h : b.toNat < 4) : ∃ m, ctrlMarker c b = some m := by
  have hcontrol : ∀ b : Byte, b.toNat < 4 → b = 0 ∨ b = 1 ∨ b = 2 ∨ b = 3 := by decide
  obtain rfl | rfl | rfl | rfl := hcontrol b h <;> exact ⟨_, rfl⟩

theorem setWidth_zext32 {n : Nat} (hn : n ≤ 32) (v : BitVec n) : (zext32 v).setWidth n = v := by
  rw [zext32, BitVec.setWidth_setWidth_of_le _ hn, BitVec.setWidth_eq]

theorem not_bit_ne : ∀ p : BitVec 1, ~~~p ≠ p := by decide

/-- Settles O25: the results of `CHAR_ENC` are the byte and its parity, on which `CHAR_DEC` has its three ends. -/
theorem characterRoundTrip : Obligations.CharacterRoundTrip := by
  unfold Obligations.CharacterRoundTrip
  intro v s t h
  obtain rfl : s.finish .ok (zext32 v) (zext32 (parity v)) 0 = t := by injection h
  rw [State.finish_res0, State.finish_res1, setWidth_zext32 (by decide), setWidth_zext32 (by decide)]
  refine ⟨fun hdata => ?_, fun hcontrol => ?_, ?_⟩
  · exact ⟨_, execCharDec_of_data rfl hdata, (finish_only ..).1⟩
  · obtain ⟨m, hm⟩ := ctrlMarker_of_lt s.cfg.ctrlMap hcontrol
    exact ⟨_, m, execCharDec_of_control rfl hm, hm, (finish_only ..).1⟩
  · exact ⟨_, execCharDec_of_parity_ne (not_bit_ne _), (finish_only ..).1⟩

end Sys2Proof.Machine
end

section
/-! PROOFS. The CRC (41_crc.md R130 to R135): the loop of the spec, its table-driven form, and what its linearity gives
(`crcShift8_xor`, `crcShift8_injective`): no residue after its own CRC, and no changed byte unseen. -/

namespace Sys2Proof.Machine

/-! ### The loop (R131) -/

/-- The CRC of one byte, and of two. -/
theorem crc16_singleton (c : Half) (b : Byte) : crc16 c [b] = crcByte c b := BitVec.xor_zero

theorem crc16_pair (c : Half) (b b' : Byte) : crc16 c [b, b'] = crcByte (crcByte c b) b' := BitVec.xor_zero

theorem crcOf_zero (s : State) (a : Nat) : s.crcOf a 0 = s.cfg.crcInit := BitVec.xor_zero

theorem crcOf_succ (s : State) (a n : Nat) : s.crcOf a (n + 1) = crcByte (s.crcOf a n) (s.mem.read (a + n)) := by
  rw [State.crcOf, Memory.readBytes_add, crc16_append]
  exact crc16_singleton ..

/-- Settles O27: the loop ends with the byte at the highest address (`crcOf_succ`), and a byte is eight shifts by
definition. -/
theorem crcIsTheBitSerialLoop : Obligations.CrcIsTheBitSerialLoop := by
  unfold Obligations.CrcIsTheBitSerialLoop
  exact ⟨crcOf_zero, crcOf_succ, fun c b => rfl⟩

/-- Settles O29: the vectors are computed. -/
theorem crcVectors : Obligations.CrcVectors := by
  unfold Obligations.CrcVectors
  decide +kernel

/-! ### The table (R132) -/

/-- Each printed entry is the CRC of its index. -/
theorem crcTable_entry : ∀ b : Byte, crcTable.getD b.toNat 0 = crcShift8 (b.setWidth 16 <<< 8) := by decide +kernel

/-- A CRC is its upper byte, moved up, and its lower byte. -/
theorem half_eq_xor (c : Half) : c = ((c >>> 8).setWidth 8).setWidth 16 <<< 8 ^^^ (c.setWidth 8).setWidth 16 := by
  apply BitVec.eq_of_getLsbD_eq
  intro j hj
  by_cases h8 : j < 8
  · simp [hj, h8]
  · simp [hj, h8, show j - 8 < 8 by omega, show 8 + (j - 8) = j by omega, show j - 8 < 16 by omega]

theorem low_shiftLeft (c : Half) : (c.setWidth 8).setWidth 16 <<< 8 = c <<< 8 := by
  apply BitVec.eq_of_getLsbD_eq
  intro j hj
  by_cases h8 : j < 8
  · simp [h8]
  · simp [hj, h8, show j - 8 < 8 by omega, show j - 8 < 16 by omega]

/-- Eight shifts of a CRC: the table entry of its upper byte, and the lower byte moved up. -/
theorem crcShift8_eq_table (c : Half) :
    crcShift8 c = c <<< 8 ^^^ crcTable.getD ((c >>> 8).setWidth 8).toNat 0 := by
  conv_lhs => rw [half_eq_xor c]
  rw [crcShift8_xor, crcShift8_low, low_shiftLeft c, crcTable_entry, BitVec.xor_comm]

/-- A byte in the upper half leaves the lower half and adds to the upper one. -/
theorem xor_upper_shiftLeft (c : Half) (b : Byte) : (c ^^^ (b.setWidth 16 <<< 8)) <<< 8 = c <<< 8 := by
  apply BitVec.eq_of_getLsbD_eq
  intro j hj
  by_cases h8 : j < 8
  · simp [h8]
  · simp [show j - 8 < 8 by omega]

theorem xor_upper_ushiftRight (c : Half) (b : Byte) :
    ((c ^^^ (b.setWidth 16 <<< 8)) >>> 8).setWidth 8 = (c >>> 8).setWidth 8 ^^^ b := by
  apply BitVec.eq_of_getLsbD_eq
  intro j hj
  simp [hj, show 8 + j < 16 by omega]

/-- Settles O28: the eight shifts of a byte are one look-up (`crcShift8_eq_table`), which the 256 entries hold. -/
theorem tableDrivenCrcAgrees : Obligations.TableDrivenCrcAgrees := by
  unfold Obligations.TableDrivenCrcAgrees
  refine ⟨by decide +kernel, fun c b => ?_⟩
  rw [crcByte_eq, crcShift8_eq_table, xor_upper_shiftLeft, xor_upper_ushiftRight, crcByteTable]

/-! ### Residue and changed bytes (R135) -/

/-- The CRC of a CRC's own bytes, high byte first, from that CRC on, is 0. -/
theorem crc16_own_bytes (c : Half) : crc16 c [c.extractLsb' 8 8, c.extractLsb' 0 8] = 0 := by
  have hhigh : crcByte c (c.extractLsb' 8 8) = (c.extractLsb' 0 8).setWidth 16 <<< 8 := by
    have hlow : c ^^^ ((c.extractLsb' 8 8).setWidth 16 <<< 8) = (c.extractLsb' 0 8).setWidth 16 := by
      apply BitVec.eq_of_getLsbD_eq
      intro j hj
      by_cases h8 : j < 8
      · simp [hj, h8]
      · simp [hj, h8, show j - 8 < 8 by omega, show 8 + (j - 8) = j by omega]
    rw [crcByte_eq, hlow, crcShift8_low]
  rw [crc16_pair, hhigh, crcByte_eq, BitVec.xor_self]
  decide

/-- Settles O30: the CRC goes on from the CRC of the sequence (`crc16_append`) over its own bytes. -/
theorem appendedCrcLeavesNoResidue : Obligations.AppendedCrcLeavesNoResidue := by
  unfold Obligations.AppendedCrcLeavesNoResidue
  intro init bytes
  rw [crc16_append, crc16_own_bytes]

/-- The same bytes after different CRCs keep them different. -/
theorem crc16_injective (bytes : List Byte) {c c' : Half} (h : crc16 c bytes = crc16 c' bytes) : c = c' :=
  foldl_crcByte_injective bytes ((BitVec.xor_left_inj _).1 h)

theorem crc16_changed_byte (init : Half) (before after : List Byte) {b b' : Byte} (hne : b ≠ b') :
    crc16 init (before ++ b :: after) ≠ crc16 init (before ++ b' :: after) := by
  intro h
  rw [List.append_cons before b, List.append_cons before b'] at h
  simp only [crc16_append] at h
  have hbyte := crc16_injective after h
  rw [crc16_singleton, crc16_singleton] at hbyte
  exact hne (crcByte_injective hbyte)

/-- Settles O31: the CRCs differ at the changed byte (`crcByte_injective`) and stay different over the bytes after it. -/
theorem crcDetectsOneChangedByte : Obligations.CrcDetectsOneChangedByte := by
  unfold Obligations.CrcDetectsOneChangedByte
  exact fun init before after b b' => crc16_changed_byte init before after

end Sys2Proof.Machine
end

section
/-! PROOFS. Frames (42_frame_codec.md R152 to R156): the failing checks of `FRAME_ENC` one by one, footprints on devices, the
round trip through memory, and a changed byte. What `FRAME_DEC` accepts is exactly a buffer with CRC 0. -/

namespace Sys2Proof.Machine

/-! ### The argument checks of `FRAME_ENC` (R152) -/

section checks
variable (d p : Byte) {s : State}

theorem execFrameEnc_null (h2 : s.arg2 = 0) : execFrameEnc d p s = .next (s.finish .invalidArgument 0 0 0) :=
  if_pos h2

theorem execFrameEnc_tooLong (h2 : s.arg2 ≠ 0) (h1 : 65536 ≤ s.arg1.toNat) :
    execFrameEnc d p s = .next (s.finish .invalidArgument 0 0 0) := by
  have hfits : fitsHalf s.arg1 = false :=
    Bool.eq_false_iff.2 fun h => absurd ((fitsHalf_iff _).1 h) (Nat.not_lt.2 h1)
  rw [execFrameEnc, if_neg (show ¬s.arg2 = nullAddr from h2), if_pos hfits, raise_eq]

/-- Past the first two checks the payload address and then the capacity decide. -/
theorem execFrameEnc_fits (h2 : s.arg2 ≠ 0) (h1 : s.arg1.toNat < 65536) :
    execFrameEnc d p s =
      if s.arg0 = 0 ∧ s.arg1.toNat ≠ 0 then raise .invalidArgument s
      else if s.arg3.toNat < s.arg1.toNat + 4 then raise .insufficientBuffer s
      else if overlaps s.arg0.toNat s.arg1.toNat s.arg2.toNat (s.arg1.toNat + 4) then .refused .overlap
      else s.withFootprint (frameEncFootprint s.arg0.toNat s.arg2.toNat s.arg1.toNat)
        (done .ok (BitVec.ofNat 32 (s.arg1.toNat + 4)) 0 0
          (s.setMem (frameWrites s.cfg.crcInit d p s.arg0.toNat s.arg2.toNat s.arg1.toNat s.mem))) := by
  have hfits : ¬fitsHalf s.arg1 = false := Bool.not_eq_false _ ▸ (fitsHalf_iff _).2 h1
  have hlen : s.payloadLen = s.arg1.toNat := toNat_lowHalf h1
  rw [execFrameEnc, if_neg (show ¬s.arg2 = nullAddr from h2), if_neg hfits, hlen, frameSize_eq]
  rfl

theorem execFrameEnc_nullPayload (h2 : s.arg2 ≠ 0) (h1 : s.arg1.toNat < 65536) (h0 : s.arg0 = 0) (hn : s.arg1 ≠ 0) :
    execFrameEnc d p s = .next (s.finish .invalidArgument 0 0 0) := by
  rw [execFrameEnc_fits d p h2 h1, if_pos ⟨h0, BitVec.toNat_ne_iff_ne.2 hn⟩, raise_eq]

theorem execFrameEnc_capacity (h2 : s.arg2 ≠ 0) (h1 : s.arg1.toNat < 65536) (h0 : s.arg0 = 0 → s.arg1 = 0)
    (h3 : s.arg3.toNat < s.arg1.toNat + 4) :
    execFrameEnc d p s = .next (s.finish .insufficientBuffer 0 0 0) := by
  have hpayload : ¬(s.arg0 = 0 ∧ s.arg1.toNat ≠ 0) := fun ⟨hnull, hn⟩ => hn (congrArg BitVec.toNat (h0 hnull))
  rw [execFrameEnc_fits d p h2 h1, if_neg hpayload, if_pos h3, raise_eq]

end checks

/-- Settles O34: each failing check ends the command by one `finish` and nothing else. -/
theorem frameEncReportsTheFirstFailingCheck : Obligations.FrameEncReportsTheFirstFailingCheck := by
  unfold Obligations.FrameEncReportsTheFirstFailingCheck
  refine fun d p s => ⟨fun h2 => ?_, fun h2 h1 => ?_, fun h2 h1 h0 hn => ?_, fun h2 h1 h0 h3 => ?_⟩
  · exact ⟨_, execFrameEnc_null d p h2, finish_only ..⟩
  · exact ⟨_, execFrameEnc_tooLong d p h2 h1, finish_only ..⟩
  · exact ⟨_, execFrameEnc_nullPayload d p h2 h1 h0 hn, finish_only ..⟩
  · exact ⟨_, execFrameEnc_capacity d p h2 h1 h0 h3, finish_only ..⟩

/-! ### Footprints on locations with side effects (R66) -/

/-- An admitted footprint with a range on such a location is refused. -/
theorem withFootprint_device {s : State} {ranges : List (Nat × Nat)} {r : Nat × Nat}
    (k : Host.Outcome State Fault Refusal) (hall : ∀ r ∈ ranges, admitted s.cfg r.1 r.2 = true) (hr : r ∈ ranges)
    (hd : touchesDevice s.cfg r.1 r.2 = true) : s.withFootprint ranges k = .refused .deviceBuffer := by
  rw [State.withFootprint, if_pos (List.all_eq_true.2 hall), if_pos (List.any_eq_true.2 ⟨r, hr, hd⟩)]

/-- Settles O37: past its argument checks each of the three commands is its footprint check, which refuses
(`withFootprint_device`). -/
theorem deviceFootprintIsRefused : Obligations.DeviceFootprintIsRefused := by
  unfold Obligations.DeviceFootprintIsRefused
  refine fun s => ⟨fun h0 ha hd => ?_, fun d p h2 h1 h0 hc ho hdest hpayload hdev => ?_⟩
  · have hrefused (k) : s.withFootprint [(s.arg0.toNat, s.arg1.toNat)] k = .refused .deviceBuffer :=
      withFootprint_device k (by simpa using ha) (List.mem_singleton_self _) hd
    exact ⟨(execCrc16_go h0).trans (hrefused _),
      fun h4 h5 => (execFrameDec_withFootprint h0 h4 h5).trans (hrefused _)⟩
  · refine (execFrameEnc_go d p h2 h1 h0 hc ho).trans ?_
    have hall : ∀ r ∈ frameEncFootprint s.arg0.toNat s.arg2.toNat s.arg1.toNat, admitted s.cfg r.1 r.2 = true := by
      intro r hr
      obtain rfl | ⟨hn, rfl⟩ := mem_frameEncFootprint.1 hr
      · exact hdest
      · exact hpayload (BitVec.toNat_ne_iff_ne.1 hn)
    obtain hd | ⟨hn, hd⟩ := hdev
    · exact withFootprint_device _ hall (mem_frameEncFootprint.2 (.inl rfl)) hd
    · exact withFootprint_device _ hall (mem_frameEncFootprint.2 (.inr ⟨BitVec.toNat_ne_iff_ne.2 hn, rfl⟩)) hd

/-! ### The round trip (R156) -/

/-- The halves of a CRC, high byte first, are the CRC. -/
theorem append_bytes (c : Half) : c.extractLsb' 8 8 ++ c.extractLsb' 0 8 = c := by
  rw [BitVec.extractLsb'_append_extractLsb'_eq_extractLsb' (by decide), BitVec.extractLsb'_eq_self]

/-- What an `OK` of `FRAME_ENC` leaves: an accessible destination that holds the frame of the payload. -/
theorem execFrameEnc_ok_frame {d p : Byte} {s t : State} (hwf : s.mem.wf = true) (h : execFrameEnc d p s = .next t)
    (hok : t.status = Code.ok.toByte) :
    s.arg2 ≠ 0 ∧ s.arg1.toNat < 65536 ∧ t.accessible s.arg2.toNat (s.arg1.toNat + 4) = true ∧
      t.mem.readBytes s.arg2.toNat (s.arg1.toNat + 4) =
        frameBytes t.cfg.crcInit d p (s.mem.readBytes s.arg0.toNat s.arg1.toNat) := by
  obtain ⟨h2, h1, ho, ha, hd, rfl⟩ := execFrameEnc_ok h hok
  have hbound := admitted_bound ha (Nat.succ_ne_zero _)
  have hdisjoint : s.arg1.toNat = 0 ∨ s.arg0.toNat + s.arg1.toNat ≤ s.arg2.toNat ∨
      s.arg2.toNat + (s.arg1.toNat + 4) ≤ s.arg0.toNat :=
    or_iff_not_imp_left.2 fun hn => overlaps_false ho hn (Nat.succ_ne_zero _)
  refine ⟨h2, h1, by simp [State.accessible, ha, hd], ?_⟩
  rw [← frameSize_eq] at hbound hdisjoint ⊢
  exact readBytes_frameWrites hwf hbound hdisjoint

/-- Past its checks, a trailer that is the CRC of the rest is accepted. -/
theorem execFrameDec_accepted {s : State} {n : Nat} (hn : s.arg1.toNat = n) (h0 : s.arg0 ≠ 0) (h4 : 4 ≤ n)
    (h5 : n ≤ 65539) (ha : s.accessible s.arg0.toNat n = true)
    (hcrc : s.crcOf s.arg0.toNat (n - 2) = s.trailer s.arg0.toNat n) :
    execFrameDec s = .next
      (s.finish .ok (zext32 (s.mem.read (s.arg0.toNat + 1) ++ s.mem.read s.arg0.toNat)) (s.arg0 + 2) (s.arg1 - 4)) := by
  subst hn
  rw [execFrameDec_go h0 h4 h5 ha, if_neg (not_not.2 hcrc), frameHeaderWord_eq]

/-- Settles O39: the destination holds the frame (`execFrameEnc_ok_frame`), whose trailer is the CRC of the rest
(`reads_of_frameBytes`), so `FRAME_DEC` accepts it. -/
theorem decodingAnEncodedFrameGivesItBack : Obligations.DecodingAnEncodedFrameGivesItBack := by
  unfold Obligations.DecodingAnEncodedFrameGivesItBack
  intro d p s t hwf h hok
  obtain ⟨h2, h1, ha, hframe⟩ := execFrameEnc_ok_frame hwf h hok
  obtain ⟨ht, hi, hpayload, hhigh, hlow⟩ := reads_of_frameBytes (Memory.length_readBytes ..) hframe
  have hsum : (s.arg1 + 4).toNat = s.arg1.toNat + 4 := BitVec.toNat_add_of_lt (by simp; omega)
  have hcrc : t.crcOf s.arg2.toNat (s.arg1.toNat + 2) = t.trailer s.arg2.toNat (s.arg1.toNat + 4) := by
    rw [State.trailer, show s.arg2.toNat + (s.arg1.toNat + 4) - 2 = s.arg2.toNat + 2 + s.arg1.toNat by omega,
      show s.arg2.toNat + (s.arg1.toNat + 4) - 1 = s.arg2.toNat + 3 + s.arg1.toNat by omega, hhigh, hlow, append_bytes,
      State.crcOf]
  have hdec := execFrameDec_accepted (s := (t.setArg 0 s.arg2).setArg 1 (s.arg1 + 4)) hsum h2 (by omega) (by omega)
    ha hcrc
  refine ⟨_, hdec, ⟨rfl, ?_, rfl, BitVec.add_sub_cancel ..⟩, hpayload⟩
  show zext32 (t.mem.read (s.arg2.toNat + 1) ++ t.mem.read s.arg2.toNat) = zext32 (p ++ d)
  rw [ht, hi]

/-! ### A changed byte (R156) -/

/-- `FRAME_DEC` ends `OK` only past every check. -/
theorem execFrameDec_ok {s t : State} (h : execFrameDec s = .next t) (hok : t.status = Code.ok.toByte) :
    s.arg0 ≠ 0 ∧ 4 ≤ s.arg1.toNat ∧ s.arg1.toNat ≤ 65539 ∧ s.accessible s.arg0.toNat s.arg1.toNat = true ∧
      s.crcOf s.arg0.toNat (s.arg1.toNat - 2) = s.trailer s.arg0.toNat s.arg1.toNat := by
  by_cases h0 : s.arg0 = 0
  · rw [execFrameDec_null h0] at h
    cases h
    exact absurd hok (Code.toByte_ne_ok_of_isError (c := .invalidArgument) rfl)
  by_cases hl : s.arg1.toNat < 4 ∨ 65539 < s.arg1.toNat
  · rw [execFrameDec_length h0 hl] at h
    cases h
    exact absurd hok (Code.toByte_ne_ok_of_isError (c := .malformedFrame) rfl)
  have h4 : 4 ≤ s.arg1.toNat := by omega
  have h5 : s.arg1.toNat ≤ 65539 := by omega
  rw [execFrameDec_withFootprint h0 h4 h5] at h
  obtain ⟨ha, hd, hk⟩ := withFootprint_next h
  have ha := ha _ (List.mem_singleton_self _)
  have hd := hd _ (List.mem_singleton_self _)
  refine ⟨h0, h4, h5, by simp [State.accessible, ha, hd], ?_⟩
  by_contra hcrc
  rw [if_pos hcrc] at hk
  cases hk
  exact absurd hok (Code.toByte_ne_ok_of_isError (c := .checksumMismatch) rfl)

/-- Two bytes after a CRC leave 0 exactly when they are that CRC. -/
theorem crc16_pair_eq_zero (c : Half) (high low : Byte) : crc16 c [high, low] = 0 ↔ c = high ++ low := by
  have hown : crc16 (high ++ low) [high, low] = 0 := by
    have h := crc16_own_bytes (high ++ low)
    have hhigh : (high ++ low).extractLsb' 8 8 = high := BitVec.extractLsb'_append_eq_left ..
    have hlow : (high ++ low).extractLsb' 0 8 = low := BitVec.extractLsb'_append_eq_right ..
    rwa [hhigh, hlow] at h
  constructor
  · exact fun h => crc16_injective _ (h.trans hown.symm)
  · rintro rfl
    exact hown

/-- A buffer's trailer is the CRC of the rest exactly when the CRC of the whole buffer is 0. -/
theorem crcOf_eq_trailer_iff (s : State) (a : Nat) {n : Nat} (hn : 2 ≤ n) :
    s.crcOf a (n - 2) = s.trailer a n ↔ s.crcOf a n = 0 := by
  obtain ⟨k, rfl⟩ := Nat.exists_eq_add_of_le' hn
  have hwhole : s.crcOf a (k + 2) = crc16 (s.crcOf a k) [s.mem.read (a + k), s.mem.read (a + k + 1)] := by
    rw [State.crcOf, Memory.readBytes_add, crc16_append]
    rfl
  rw [hwhole, crc16_pair_eq_zero, Nat.add_sub_cancel]
  rfl

/-- A byte of the range written with another value changes the CRC. -/
theorem crcOf_write_ne {s : State} (hwf : s.mem.wf = true) {a n x : Nat} {v : Byte} (hax : a ≤ x) (hxn : x < a + n)
    (hv : v ≠ s.mem.read x) : (s.setMem (s.mem.write x v)).crcOf a n ≠ s.crcOf a n := by
  obtain ⟨k, rfl⟩ := Nat.exists_eq_add_of_le hax
  obtain ⟨j, rfl⟩ := Nat.exists_eq_add_of_lt (Nat.lt_of_add_lt_add_left hxn)
  have hsplit (m : Memory) :
      m.readBytes a (k + j + 1) = m.readBytes a k ++ m.read (a + k) :: m.readBytes (a + k + 1) j :=
    Memory.readBytes_add m a k (j + 1)
  have hother {y : Nat} (hy : y ≠ a + k) : (s.mem.write (a + k) v).read y = s.mem.read y :=
    (Memory.read_write hwf (a + k) v y).trans (if_neg hy)
  have hbefore : (s.mem.write (a + k) v).readBytes a k = s.mem.readBytes a k :=
    Memory.readBytes_congr fun y _ hy => hother (by omega)
  have hafter : (s.mem.write (a + k) v).readBytes (a + k + 1) j = s.mem.readBytes (a + k + 1) j :=
    Memory.readBytes_congr fun y hy _ => hother (by omega)
  have hx : (s.mem.write (a + k) v).read (a + k) = v := (Memory.read_write hwf (a + k) v _).trans (if_pos rfl)
  simp only [State.crcOf, State.setMem_mem, State.setMem_cfg]
  rw [hsplit, hsplit s.mem, hbefore, hafter, hx]
  exact crc16_changed_byte _ _ _ hv

/-- Settles O40: an accepted buffer has CRC 0 (`crcOf_eq_trailer_iff`), the changed one has not (`crcOf_write_ne`), so its
trailer is no longer the CRC of the rest. -/
theorem oneCorruptedByteIsDetected : Obligations.OneCorruptedByteIsDetected := by
  unfold Obligations.OneCorruptedByteIsDetected
  intro s t x v hwf h hok hx hx' hv
  obtain ⟨h0, h4, h5, ha, hcrc⟩ := execFrameDec_ok h hok
  have hzero : s.crcOf s.arg0.toNat s.arg1.toNat = 0 := (crcOf_eq_trailer_iff s _ (by omega)).1 hcrc
  have hchanged := crcOf_write_ne hwf hx hx' hv
  rw [hzero] at hchanged
  have hmismatch := mt (crcOf_eq_trailer_iff (s.setMem (s.mem.write x v)) s.arg0.toNat (by omega)).1 hchanged
  exact ⟨_, (execFrameDec_go (s := s.setMem (s.mem.write x v)) h0 h4 h5 ha).trans (if_pos hmismatch),
    (finish_only ..).1⟩

end Sys2Proof.Machine
end

section
/-! PROOFS. `Admit` (20_memory.md R63; log 3): on a well-formed platform the regions are maximal runs, so bytes that are
there one after the other lie in one region. -/

namespace Sys2Proof.Machine

/-- `Admit` of a range that is not empty: it ends inside the 32-bit space, and some region holds it. -/
theorem admitted_iff {c : Config} {a n : Nat} (hn : n ≠ 0) :
    admitted c a n = true ↔ a + n ≤ addrTop ∧ ∃ r ∈ c.regions, r.base ≤ a ∧ a + n ≤ r.base + r.size := by
  simp [admitted, hn, holdsRange]

theorem regionsFrom_cons {lo : Nat} {r : Region} {rest : List Region} (h : regionsFrom lo (r :: rest) = true) :
    lo ≤ r.base ∧ regionsFrom (r.base + r.size + 1) rest = true := by
  simp only [regionsFrom, Bool.and_eq_true, decide_eq_true_eq] at h
  obtain ⟨⟨⟨hlo, -⟩, -⟩, hrest⟩ := h
  exact ⟨hlo, hrest⟩

theorem regionsFrom_base_le {lo : Nat} {rs : List Region} (h : regionsFrom lo rs = true) {r : Region} (hr : r ∈ rs) :
    lo ≤ r.base := by
  induction rs generalizing lo with
  | nil => cases hr
  | cons r' rest ih =>
    obtain ⟨hlo, hrest⟩ := regionsFrom_cons h
    cases hr with
    | head => exact hlo
    | tail _ hmem =>
      have hbase := ih hrest hmem
      omega

/-- Two regions leave a gap, so the byte after a region's byte is in that region or in none. -/
theorem regionsFrom_adjacent {lo x : Nat} {rs : List Region} (h : regionsFrom lo rs = true) {r r' : Region}
    (hr : r ∈ rs) (hr' : r' ∈ rs) (hx : r.base ≤ x) (hxr : x < r.base + r.size) (hx' : r'.base ≤ x + 1)
    (hxr' : x + 1 < r'.base + r'.size) : x + 1 < r.base + r.size := by
  induction rs generalizing lo with
  | nil => cases hr
  | cons r₀ rest ih =>
    obtain ⟨-, hrest⟩ := regionsFrom_cons h
    cases hr with
    | head =>
      cases hr' with
      | head => exact hxr'
      | tail _ hmem' =>
        have hgap := regionsFrom_base_le hrest hmem'
        omega
    | tail _ hmem =>
      cases hr' with
      | head =>
        have hgap := regionsFrom_base_le hrest hmem
        omega
      | tail _ hmem' => exact ih hrest hmem hmem'

/-- A byte more of the run of a region stays in the region, when that byte is there. -/
theorem admitted_succ {c : Config} (hreg : regionsFrom 0 c.regions = true) {a n : Nat} (hn : n ≠ 0)
    (hrange : admitted c a n = true) (hbyte : admitted c (a + n) 1 = true) : admitted c a (n + 1) = true := by
  obtain ⟨-, r, hr, hra, hrn⟩ := (admitted_iff hn).1 hrange
  obtain ⟨htop, r', hr', hra', hrn'⟩ := (admitted_iff Nat.one_ne_zero).1 hbyte
  have hlast := regionsFrom_adjacent (x := a + n - 1) hreg hr hr' (by omega) (by omega) (by omega) (by omega)
  exact (admitted_iff n.succ_ne_zero).2 ⟨htop, r, hr, hra, by omega⟩

theorem admitted_of_bytes {c : Config} (hreg : regionsFrom 0 c.regions = true) {a : Nat} :
    ∀ n, (∀ k, k < n → admitted c (a + k) 1 = true) → admitted c a n = true
  | 0, _ => rfl
  | 1, h => h 0 Nat.zero_lt_one
  | n + 2, h =>
    admitted_succ hreg n.succ_ne_zero (admitted_of_bytes hreg (n + 1) fun k hk => h k (Nat.lt_succ_of_lt hk))
      (h (n + 1) (Nat.lt_succ_self _))

/-- Each byte of an admitted range is there. -/
theorem admitted_byte {c : Config} {a n k : Nat} (h : admitted c a n = true) (hk : k < n) :
    admitted c (a + k) 1 = true := by
  obtain ⟨htop, r, hr, hra, hrn⟩ := (admitted_iff (Nat.ne_zero_of_lt hk)).1 h
  exact (admitted_iff Nat.one_ne_zero).2 ⟨by omega, r, hr, by omega, by omega⟩

/-- Settles O41: a region that holds a range holds each byte of it (`admitted_byte`), and bytes in a row lie in one region
(`admitted_succ`). -/
theorem admitIsDecidedByteByByte : Obligations.AdmitIsDecidedByteByByte := by
  unfold Obligations.AdmitIsDecidedByteByByte
  intro c a n hok
  simp only [platformOk, Bool.and_eq_true] at hok
  obtain ⟨⟨hreg, -⟩, -⟩ := hok
  constructor
  · intro h
    by_cases hn : n = 0
    · exact .inl hn
    · exact .inr ⟨admitted_bound h hn, fun k hk => admitted_byte h hk⟩
  · rintro (rfl | ⟨-, hbytes⟩)
    · rfl
    · exact admitted_of_bytes hreg n hbytes

end Sys2Proof.Machine
end

section
/-! PROOFS. The two orders of commands the spec names: a boot order that makes a route work (43_router.md R188,
70_reset_and_hazards.md R283), and the commands that lead to the internal state of reset (R280). -/

namespace Sys2Proof.Machine

/-- Past all its checks `RTR_ROUTE` gives the port of the table and counts one packet there (R187). -/
theorem execRtrRoute_routed {s : State} {e o : Byte} {d p : Fin 8} (hea : e ≠ s.deviceAddr) (hd : e.toNat = d)
    (hroute : s.route[d] = o) (hports : o.toNat < s.numPorts.toNat) (hp : o.toNat = p)
    (hst : (s.link[p]).state = .connected) :
    execRtrRoute e s = .next ((s.setLink p (s.link[p]).countTx).finish .ok (zext32 o) 0 0) := by
  rw [execRtrRoute_entry hea hd, hroute]
  exact (if_neg (Nat.not_le.2 hports)).trans (routeVia_connected hp hst)

/-- Settles O49: each command of the order is its one write, so that at `RTR_ROUTE` the destination has the port as its
route, below `num_ports`, and the port is Connected with a count of 0 (`execRtrRoute_routed`). -/
theorem bootOrderMakesARouteWork : Obligations.BootOrderMakesARouteWork := by
  unfold Obligations.BootOrderMakesARouteWork
  intro a n e o s s1 s2 s3 hea he ho hinit hstate hadd
  obtain ⟨p, hp⟩ : ∃ p : Fin 8, o.toNat = p := ⟨⟨o.toNat, Nat.lt_of_lt_of_le ho (Nat.min_le_right ..)⟩, rfl⟩
  obtain ⟨d, hd⟩ : ∃ d : Fin 8, e.toNat = d := ⟨⟨e.toNat, he⟩, rfl⟩
  have hports : o.toNat < (clampPorts n).toNat := toNat_clampPorts n ▸ ho
  cases hinit
  cases (execLinkSetState_set hp .connected _).symm.trans hstate
  cases (execRtrAddRoute_stored hd hports).symm.trans hadd
  generalize hs3 : State.finish (State.setRoute _ d o) _ _ _ _ = s3
  have hentry : s3.link[p] = ((s.link[p]).routerInit p).withState .connected := by
    subst hs3
    refine (Vector.getElem_set_self p.isLt).trans (congrArg (Link.withState · .connected) ?_)
    exact initRouter_getLink s a n p
  have hroute : s3.route[d] = o := by
    subst hs3
    exact Vector.getElem_set_self d.isLt
  have hrouted : execRtrRoute e s3 = .next ((s3.setLink p (s3.link[p]).countTx).finish .ok (zext32 o) 0 0) := by
    refine execRtrRoute_routed ?_ hd hroute ?_ hp (by rw [hentry]; rfl)
    · subst hs3
      exact hea
    · subst hs3
      exact hports
  refine ⟨_, hrouted, (finish_only ..).1, fun p' hp' => ?_⟩
  obtain rfl : p = p' := Fin.ext (hp.symm.trans hp')
  have hcounted : ((s3.setLink p (s3.link[p]).countTx).finish .ok (zext32 o) 0 0).link[p] = (s3.link[p]).countTx :=
    Vector.getElem_set_self p.isLt
  rw [hcounted, hentry]
  exact ⟨rfl, rfl⟩

/-! ### The way to the reset state (R280) -/

/-- What the state has after `RTR_INIT 0x00, 0` and `LINK_INIT p, 0` for the ports p below `n`, the operands zero. -/
structure InitialisedBelow (n : Nat) (s : State) : Prop where
  arg0 : s.arg0 = 0
  arg1 : s.arg1 = 0
  arg2 : s.arg2 = 0
  deviceAddr : s.deviceAddr = 0
  numPorts : s.numPorts = 0
  route : s.route = State.reset.route
  vc : s.vc = State.reset.vc
  fresh : ∀ p : Fin 8, s.link[p] = (s.link[p]).routerInit p
  configured : ∀ p : Fin 8, p.val < n → s.link[p] = Link.atReset p

theorem initialisedBelow_zero {s t : State} (h0 : s.arg0 = 0) (h1 : s.arg1 = 0) (h2 : s.arg2 = 0)
    (h : exec (.rtrInit 0 0) s = .next t) : InitialisedBelow 0 t := by
  cases h
  refine ⟨h0, h1, h2, rfl, rfl, rfl, rfl, fun p => ?_, fun p hp => absurd hp p.val.not_lt_zero⟩
  rw [State.finish_link, initRouter_getLink]
  rfl

/-- An initialised entry, configured with zeros, is the entry at reset (R40, R181, R221). -/
theorem configure_routerInit (k : Link) (p : Fin 8) : (k.routerInit p).configure 0 0 0 0 = Link.atReset p := rfl

theorem InitialisedBelow.succ {n : Nat} (hn : n < 8) {s t : State} (hs : InitialisedBelow n s)
    (h : exec (.linkInit (BitVec.ofNat 8 n) 0) s = .next t) : InitialisedBelow (n + 1) t := by
  have hq : (BitVec.ofNat 8 n).toNat = (⟨n, hn⟩ : Fin 8) := by simp; omega
  have hfits : s.arg2.toNat < 65536 := by rw [hs.arg2]; decide
  rw [show exec (.linkInit _ 0) s = _ from execLinkInit_configured 0 hq hfits] at h
  cases h
  have hentry : (s.link[(⟨n, hn⟩ : Fin 8)]).configure s.arg0 s.arg1 (s.arg2.setWidth 16) 0 = Link.atReset ⟨n, hn⟩ := by
    rw [hs.fresh, hs.arg0, hs.arg1, hs.arg2]
    exact configure_routerInit _ _
  rw [hentry]
  have hlink (p : Fin 8) : ((s.setLink ⟨n, hn⟩ (Link.atReset ⟨n, hn⟩)).finish .ok 0 0 0).link[p] =
      if p = ⟨n, hn⟩ then Link.atReset p else s.link[p] := by
    rw [State.finish_link, State.setLink_link]
    split
    · subst p
      exact Vector.getElem_set_self hn
    · rename_i hp
      exact vector_getElem_set_of_ne _ _ _ hp
  refine ⟨hs.arg0, hs.arg1, hs.arg2, hs.deviceAddr, hs.numPorts, hs.route, hs.vc, fun p => ?_, fun p hp => ?_⟩
  · rw [hlink]
    split
    · rfl
    · exact hs.fresh p
  · rw [hlink]
    split
    · rfl
    · rename_i hne
      exact hs.configured p (Nat.lt_of_le_of_ne (Nat.le_of_lt_succ hp) fun heq => hne (Fin.ext heq))

/-- With all eight ports initialised, the internal state is the one of reset. -/
theorem InitialisedBelow.sameInternal {s : State} (h : InitialisedBelow 8 s) : SameInternal State.reset s := by
  refine ⟨h.deviceAddr, h.numPorts, h.route, h.vc, Vector.ext fun j hj => ?_⟩
  exact (h.configured ⟨j, hj⟩ hj).trans (reset_getLink ⟨j, hj⟩).symm

/-- Settles O54: `RTR_INIT` sets everything but the links' configuration (`initialisedBelow_zero`), and each `LINK_INIT` sets
one more link (`InitialisedBelow.succ`). -/
theorem initCommandsReachTheResetState : Obligations.InitCommandsReachTheResetState := by
  unfold Obligations.InitCommandsReachTheResetState
  intro s s0 s1 s2 s3 s4 s5 s6 s7 t h0 h1 h2 e0 e1 e2 e3 e4 e5 e6 e7 e8
  have i1 := (initialisedBelow_zero h0 h1 h2 e0).succ (by decide) e1
  have i4 := ((i1.succ (by decide) e2).succ (by decide) e3).succ (by decide) e4
  have i8 := (((i4.succ (by decide) e5).succ (by decide) e6).succ (by decide) e7).succ (by decide) e8
  exact i8.sameInternal

end Sys2Proof.Machine
end

section
/-! PROOFS. The host's critical section (70_reset_and_hazards.md R286; log 22): what each action records of it, and which
writes of the host make a command or a read of its results stop. -/

namespace Sys2Proof.Machine

/-! ### The record -/

section record
variable (h : HostSection)

theorem HostSection.mem_opened (k j : Fin 4) : j ∈ (h.opened k).operands ↔ j = k ∨ j ∈ h.operands := by
  unfold HostSection.opened
  dsimp only
  split
  · rename_i hk
    exact ⟨.inr, fun hj => hj.elim (fun heq => heq ▸ hk) id⟩
  · exact List.mem_cons

theorem HostSection.noteWrite_written_of_open {a : Nat} (ho : h.operands ≠ []) :
    (h.noteWrite a).written = (a, h.operands) :: h.written := if_neg ho

theorem HostSection.noteWrite_written_of_closed {a : Nat} (ho : h.operands = []) :
    (h.noteWrite a).written = h.written := if_pos ho

theorem HostSection.noteWrite_overwritten (a : Nat) : (h.noteWrite a).overwritten = true ↔
    h.overwritten = true ∨ ∃ r ∈ h.reads, r.1 ≤ a ∧ a < r.1 + r.2 := by
  rw [HostSection.noteWrite, Bool.or_eq_true, inRanges_iff]

/-- A command the host wrote an operand of leaves the ranges it read. -/
theorem HostSection.afterCommand_reads {named : List (Fin 4)} {k : Fin 4} (hk : k ∈ h.operands) (hn : k ∈ named)
    (ranges : List (Nat × Nat)) : (h.afterCommand named ranges).reads = ranges :=
  if_pos (namesOne_iff.2 ⟨k, hk, hn⟩)

/-- No other command leaves any. -/
theorem HostSection.mem_afterCommand_reads {named : List (Fin 4)} {ranges : List (Nat × Nat)} {r : Nat × Nat}
    (hr : r ∈ (h.afterCommand named ranges).reads) : r ∈ ranges ∧ ∃ k ∈ h.operands, k ∈ named := by
  unfold HostSection.afterCommand at hr
  dsimp only at hr
  split at hr
  · rename_i hn
    exact ⟨hr, namesOne_iff.1 hn⟩
  · cases hr

/-- The section is broken exactly by a byte of the ranges, written after an operand the command names. -/
theorem HostSection.breaks_iff {named : List (Fin 4)} {ranges : List (Nat × Nat)} :
    h.breaks named ranges = true ↔ ∃ x ks, (x, ks) ∈ h.written ∧ (∃ r ∈ ranges, r.1 ≤ x ∧ x < r.1 + r.2) ∧
      ∃ k ∈ ks, k ∈ named := by
  simp only [HostSection.breaks, List.any_eq_true, Bool.and_eq_true, inRanges_iff, namesOne_iff, Prod.exists]

end record

/-- What a command word read, if anything, was read by the command it decodes to. -/
theorem mem_readFootprint {w : Word} {s t : State} {r : Nat × Nat} (h : r ∈ readFootprint w s t) :
    ∃ i, decode w = .ok i ∧ r ∈ readsOf i s t := by
  unfold readFootprint at h
  split at h
  · exact ⟨_, by assumption, h⟩
  · cases h

/-! ### What each command reads (R133, R152, R155) -/

section reads
variable {s t : State}

theorem readsOf_crc16 (h0 : s.arg0 ≠ 0) : readsOf .crc16 s t = [(s.arg0.toNat, s.arg1.toNat)] := if_neg h0

theorem readsOf_frameDec (ht : t.status = Code.ok.toByte ∨ t.status = Code.checksumMismatch.toByte) :
    readsOf .frameDec s t = [(s.arg0.toNat, s.arg1.toNat)] := if_pos ht

theorem readsOf_frameEnc (d p : Byte) (ht : t.status = Code.ok.toByte) (h1 : s.arg1.toNat < 65536) :
    readsOf (.frameEnc d p) s t = [(s.arg0.toNat, s.arg1.toNat)] := by
  rw [readsOf, if_pos ht, State.payloadLen, toNat_lowHalf h1]

theorem payloadLen_le (s : State) : s.payloadLen ≤ s.arg1.toNat := by
  rw [State.payloadLen, lowHalf_eq_setWidth, BitVec.toNat_setWidth]
  exact Nat.mod_le ..

/-- Whatever a command reads starts at `ARG0` and is no longer than `ARG1`. -/
theorem mem_readsOf_range {i : Instr} {r : Nat × Nat} (h : r ∈ readsOf i s t) :
    (i = .crc16 ∨ i = .frameDec ∨ ∃ d p, i = .frameEnc d p) ∧ r.1 = s.arg0.toNat ∧ r.2 ≤ s.arg1.toNat := by
  obtain ⟨hbase, ⟨hi, hlen⟩ | ⟨hi, -, hlen⟩⟩ := mem_readsOf h
  · exact ⟨hi.imp_right .inl, hbase, hlen.le⟩
  · exact ⟨.inr (.inr hi), hbase, hlen ▸ payloadLen_le s⟩

/-- `FRAME_ENC` names all four registers. -/
theorem mem_argsRead_frameEnc (d p : Byte) : ∀ k, k ∈ argsRead (.frameEnc d p) :=
  (by decide : ∀ k : Fin 4, k ∈ [0, 1, 2, 3])

/-- `CRC16` and `FRAME_DEC` name the registers 0 and 1. -/
theorem mem_zero_or_one {k : Fin 4} {ks : List (Fin 4)} (hk : k ∈ ks) (hn : k ∈ [0, 1]) : 0 ∈ ks ∨ 1 ∈ ks := by
  obtain rfl | rfl := List.mem_pair.1 hn
  · exact .inl hk
  · exact .inr hk

/-- What may be read is read: a member of `readsOf` excludes the paths that access no memory. -/
theorem ne_zero_of_mem_readsOf_crc16 {r : Nat × Nat} (h : r ∈ readsOf .crc16 s t) : s.arg0 ≠ 0 := by
  intro h0
  rw [readsOf, if_pos (show s.arg0 = nullAddr from h0)] at h
  cases h

theorem status_of_mem_readsOf_frameDec {r : Nat × Nat} (h : r ∈ readsOf .frameDec s t) :
    t.status = Code.ok.toByte ∨ t.status = Code.checksumMismatch.toByte := by
  by_contra hne
  rw [readsOf, if_neg hne] at h
  cases h

theorem status_of_mem_readsOf_frameEnc {d p : Byte} {r : Nat × Nat} (h : r ∈ readsOf (.frameEnc d p) s t) :
    t.status = Code.ok.toByte := by
  by_contra hne
  rw [readsOf, if_neg hne] at h
  cases h

end reads

/-- Past its argument checks, with an accessible footprint, `FRAME_DEC` ends with a code that says it read the buffer. -/
theorem execFrameDec_accessible {s : State} (h0 : s.arg0 ≠ 0) (h4 : 4 ≤ s.arg1.toNat) (h5 : s.arg1.toNat ≤ 65539)
    (ha : s.accessible s.arg0.toNat s.arg1.toNat = true) : ∃ t, execFrameDec s = .next t ∧
      (t.status = Code.ok.toByte ∨ t.status = Code.checksumMismatch.toByte) := by
  rw [execFrameDec_go h0 h4 h5 ha]
  split
  · exact ⟨_, rfl, .inr rfl⟩
  · exact ⟨_, rfl, .inl rfl⟩

/-! ### What each action leaves in the record -/

section actions
variable {s t : State} {rest : List HostAction} (h : step s = .next t)
include h

theorem step_argWrite_section {off : BitVec 6} {k : Fin 4} {v : Word}
    (hk : (off = 0x08 ∧ k = 0) ∨ (off = 0x0C ∧ k = 1) ∨ (off = 0x10 ∧ k = 2) ∨ (off = 0x14 ∧ k = 3))
    (hs : s.host = .regWrite (s.cfg.base + off.setWidth 32) .word v :: rest) :
    t.hostSection = s.hostSection.opened k := by
  obtain rfl : off = argOffset k := by
    obtain ⟨rfl, rfl⟩ | ⟨rfl, rfl⟩ | ⟨rfl, rfl⟩ | ⟨rfl, rfl⟩ := hk <;> rfl
  cases (step_argWrite k hs).symm.trans h
  rfl

theorem step_memWrite_section {a : Word} {v : Byte} (hs : s.host = .memWrite a v :: rest) :
    t.hostSection = s.hostSection.noteWrite a.toNat := by
  obtain ⟨-, hk⟩ := hostByteAccess_next ((step_pending hs).symm.trans h)
  cases hk
  rfl

theorem step_cmdWrite_section {w : Word} (hs : s.host = cmdWrite s.cfg w :: rest) :
    ∃ u, runWord w ((s.setHost rest).setCmd w) = .next u ∧ t.status = u.status ∧
      t.hostSection = s.hostSection.afterCommand (namedArgs w) (readFootprint w s u) := by
  obtain ⟨u, hu, -, rfl⟩ := startCommand_next ((step_cmdWrite hs).symm.trans h)
  exact ⟨u, hu, rfl, rfl⟩

theorem step_read_section (hs : (∃ addr size, s.host = .regRead addr size :: rest) ∨
    (∃ a, s.host = .memRead a :: rest) ∨ s.host = []) : t.hostSection = s.hostSection := by
  obtain ⟨addr, size, hs⟩ | ⟨a, hs⟩ | hs := hs
  · obtain ⟨off, -, -, -, hread⟩ := registerAccess_next ((step_pending hs).symm.trans h)
    obtain ⟨-, rfl⟩ := hostRegRead_next hread
    rfl
  · obtain ⟨-, hk⟩ := hostByteAccess_next ((step_pending hs).symm.trans h)
    cases hk
    rfl
  · cases (step_idle hs).symm.trans h
    rfl

theorem step_reset_section (hs : s.host = .reset :: rest ∨ ∃ w, s.host = .resetDuring w :: rest) :
    t.hostSection = .closed := by
  obtain hs | ⟨w, hs⟩ := hs
  · cases (step_pending hs).symm.trans h
    rfl
  · obtain ⟨-, rfl | ⟨_, _, _, -, -, rfl⟩⟩ := resetDuringCommand_next ((step_pending hs).symm.trans h) <;> rfl

/-- What follows a command word is the section of the command it decodes to. -/
theorem step_command_section {w : Word} {i : Instr} (hs : s.host = cmdWrite s.cfg w :: rest) (hw : decode w = .ok i) :
    ∃ u, exec i ((s.setHost rest).setCmd w) = .next u ∧ t.status = u.status ∧
      t.hostSection = s.hostSection.afterCommand (argsRead i) (readsOf i s u) := by
  obtain ⟨u, hu, hst, hsec⟩ := step_cmdWrite_section h hs
  rw [runWord_of_decode hw] at hu
  rw [namedArgs_ok hw, readFootprint_ok hw] at hsec
  exact ⟨u, hu, hst, hsec⟩

theorem step_crc16_reads {w : Word} (hs : s.host = cmdWrite s.cfg w :: rest) (hw : decode w = .ok .crc16)
    (hops : 0 ∈ s.hostSection.operands ∨ 1 ∈ s.hostSection.operands) (h0 : s.arg0 ≠ 0) :
    t.hostSection.reads = [(s.arg0.toNat, s.arg1.toNat)] := by
  obtain ⟨u, -, -, hsec⟩ := step_command_section h hs hw
  rw [hsec, ← readsOf_crc16 (t := u) h0]
  obtain hk | hk := hops <;> exact HostSection.afterCommand_reads _ hk (by decide) _

theorem step_frameDec_reads {w : Word} (hs : s.host = cmdWrite s.cfg w :: rest) (hw : decode w = .ok .frameDec)
    (hops : 0 ∈ s.hostSection.operands ∨ 1 ∈ s.hostSection.operands)
    (ht : t.status = Code.ok.toByte ∨ t.status = Code.checksumMismatch.toByte) :
    t.hostSection.reads = [(s.arg0.toNat, s.arg1.toNat)] := by
  obtain ⟨u, -, hst, hsec⟩ := step_command_section h hs hw
  rw [hst] at ht
  rw [hsec, ← readsOf_frameDec ht]
  obtain hk | hk := hops <;> exact HostSection.afterCommand_reads _ hk (by decide) _

theorem step_frameEnc_reads {w : Word} {d p : Byte} (hs : s.host = cmdWrite s.cfg w :: rest)
    (hw : decode w = .ok (.frameEnc d p)) (hops : s.hostSection.operands ≠ []) (ht : t.status = Code.ok.toByte) :
    t.hostSection.reads = [(s.arg0.toNat, s.arg1.toNat)] := by
  obtain ⟨u, hu, hst, hsec⟩ := step_command_section h hs hw
  rw [hst] at ht
  obtain ⟨-, hlen, -⟩ := execFrameEnc_ok hu ht
  obtain ⟨k, hk⟩ := List.exists_mem_of_ne_nil _ hops
  rw [hsec, HostSection.afterCommand_reads _ hk (mem_argsRead_frameEnc d p k)]
  exact readsOf_frameEnc (s := s) d p ht hlen

/-- Whatever the record says was read: the host had written an operand the command names, and the command is one of three, on
its path that accesses memory. -/
theorem step_cmdWrite_mem_reads {w : Word} (hs : s.host = cmdWrite s.cfg w :: rest) {r : Nat × Nat}
    (hr : r ∈ t.hostSection.reads) : ∃ i, decode w = .ok i ∧ (∃ k ∈ s.hostSection.operands, k ∈ argsRead i) ∧
      (i = .crc16 ∧ s.arg0 ≠ 0 ∨
        i = .frameDec ∧ (t.status = Code.ok.toByte ∨ t.status = Code.checksumMismatch.toByte) ∨
        (∃ d p, i = .frameEnc d p) ∧ t.status = Code.ok.toByte) := by
  obtain ⟨u, -, hst, hsec⟩ := step_cmdWrite_section h hs
  rw [hsec] at hr
  obtain ⟨hread, k, hk, hnamed⟩ := HostSection.mem_afterCommand_reads _ hr
  obtain ⟨i, hw, hri⟩ := mem_readFootprint hread
  rw [namedArgs_ok hw] at hnamed
  refine ⟨i, hw, ⟨k, hk, hnamed⟩, ?_⟩
  rw [hst]
  obtain ⟨-, ⟨rfl | rfl, -⟩ | ⟨⟨d, p, rfl⟩, -⟩⟩ := mem_readsOf hri
  · exact .inl ⟨rfl, ne_zero_of_mem_readsOf_crc16 hri⟩
  · exact .inr (.inl ⟨rfl, status_of_mem_readsOf_frameDec hri⟩)
  · exact .inr (.inr ⟨⟨d, p, rfl⟩, status_of_mem_readsOf_frameEnc hri⟩)

theorem step_cmdWrite_reads_nil {w : Word} (hs : s.host = cmdWrite s.cfg w :: rest)
    (hnot : (decode w = .ok .crc16 ∧ s.arg0 = 0) ∨
      (decode w = .ok .frameDec ∧ t.status ≠ Code.ok.toByte ∧ t.status ≠ Code.checksumMismatch.toByte) ∨
      (∃ d p, decode w = .ok (.frameEnc d p) ∧ t.status ≠ Code.ok.toByte) ∨
      (decode w ≠ .ok .crc16 ∧ decode w ≠ .ok .frameDec ∧ ∀ d p, decode w ≠ .ok (.frameEnc d p)) ∨
      (0 ∉ s.hostSection.operands ∧ 1 ∉ s.hostSection.operands ∧ ∀ d p, decode w ≠ .ok (.frameEnc d p)) ∨
      s.hostSection.operands = []) : t.hostSection.reads = [] := by
  refine List.eq_nil_iff_forall_not_mem.2 fun r hr => ?_
  obtain ⟨i, hw, ⟨k, hk, hnamed⟩, hi⟩ := step_cmdWrite_mem_reads h hs hr
  have hops : s.hostSection.operands ≠ [] := List.ne_nil_of_mem hk
  obtain ⟨rfl, h0⟩ | ⟨rfl, hst⟩ | ⟨⟨d, p, rfl⟩, hst⟩ := hi
  · have h01 := mem_zero_or_one hk hnamed
    have hnot : s.arg0 = 0 ∨ 0 ∉ s.hostSection.operands ∧ 1 ∉ s.hostSection.operands := by
      simpa [hw, hops] using hnot
    exact hnot.elim h0 fun ⟨hn0, hn1⟩ => h01.elim hn0 hn1
  · have h01 := mem_zero_or_one hk hnamed
    have hnot : (t.status ≠ Code.ok.toByte ∧ t.status ≠ Code.checksumMismatch.toByte) ∨
        0 ∉ s.hostSection.operands ∧ 1 ∉ s.hostSection.operands := by simpa [hw, hops] using hnot
    exact hnot.elim (fun ⟨hok, hmismatch⟩ => hst.elim hok hmismatch) fun ⟨hn0, hn1⟩ => h01.elim hn0 hn1
  · have hnot : t.status ≠ Code.ok.toByte := by simpa [hw, hops] using hnot
    exact hnot hst

end actions

/-- Settles O59: action by action, the record after the step. -/
theorem criticalSectionIsRecorded : Obligations.CriticalSectionIsRecorded := by
  unfold Obligations.CriticalSectionIsRecorded
  intro s t rest h
  refine ⟨fun off k v hk hs => ?_, fun a v hs => ?_, fun w hs => ?_, fun off v hoff hs => ?_,
    step_read_section h, step_reset_section h⟩
  · rw [step_argWrite_section h hk hs]
    exact ⟨HostSection.mem_opened _ k, rfl, rfl, rfl⟩
  · rw [step_memWrite_section h hs]
    exact ⟨rfl, HostSection.noteWrite_written_of_open _, HostSection.noteWrite_written_of_closed _, rfl,
      HostSection.noteWrite_overwritten _ _⟩
  · obtain ⟨u, -, -, hsec⟩ := step_cmdWrite_section h hs
    refine ⟨by rw [hsec]; rfl, by rw [hsec]; rfl, by rw [hsec]; rfl, fun hops => ⟨fun hw h0 => ?_, fun hw ht => ?_⟩,
      fun hops d p hw ht => ?_, step_cmdWrite_reads_nil h hs⟩
    · exact step_crc16_reads h hs hw hops h0
    · exact step_frameDec_reads h hs hw hops ht
    · exact step_frameEnc_reads h hs hw hops ht
  · cases (step_ignoredWrite hoff hs).symm.trans h
    rfl

/-! ### Who refuses for a broken section (R286) -/

/-- The footprint check refuses in the name of a device, or its command does. -/
theorem withFootprint_refused {s : State} {ranges : List (Nat × Nat)} {k : Host.Outcome State Fault Refusal}
    {r : Refusal} (h : s.withFootprint ranges k = .refused r) : r = .deviceBuffer ∨ k = .refused r := by
  unfold State.withFootprint at h
  split at h
  · split at h
    · cases h
      exact .inl rfl
    · exact .inr h
  · cases h

theorem execFrameEnc_refused {d p : Byte} {s : State} {r : Refusal} (h : execFrameEnc d p s = .refused r) :
    r = .overlap ∨ r = .deviceBuffer := by
  unfold execFrameEnc at h
  split at h
  · cases h
  split at h
  · cases h
  split at h
  · cases h
  split at h
  · cases h
  split at h
  · cases h
    exact .inl rfl
  · obtain hr | hk := withFootprint_refused h
    · exact .inr hr
    · cases hk

theorem execFrameDec_refused {s : State} {r : Refusal} (h : execFrameDec s = .refused r) : r = .deviceBuffer := by
  unfold execFrameDec at h
  split at h
  · cases h
  split at h
  · cases h
  split at h
  · cases h
  obtain hr | hk := withFootprint_refused h
  · exact hr
  · split at hk <;> cases hk

theorem execRtrRoute_not_refused {d : Byte} {s : State} {r : Refusal} : execRtrRoute d s ≠ .refused r := by
  intro h
  unfold execRtrRoute at h
  split at h
  · cases h
  split at h
  · cases h
  split at h
  · cases h
  unfold routeVia at h
  split at h
  · cases h
  · split at h <;> cases h

/-- A command is refused for overlapping ranges or for a device, and for nothing else. -/
theorem exec_refused {i : Instr} {s : State} {r : Refusal} (h : exec i s = .refused r) :
    r = .overlap ∨ r = .deviceBuffer := by
  cases i with
  | charEnc | rtrInit | rtrReadCfg => cases h
  | charDec b p =>
    simp only [exec, execCharDec] at h
    split at h
    · cases h
    · split at h <;> cases h
  | crc16 =>
    simp only [exec, execCrc16] at h
    split at h
    · cases h
    · obtain hr | hk := withFootprint_refused h
      · exact .inr hr
      · cases hk
  | frameEnc d p => exact execFrameEnc_refused h
  | frameDec => exact .inr (execFrameDec_refused h)
  | frameSize | rtrOpenCh | rtrReadRoute | vcRead =>
    simp only [exec, execFrameSize, execRtrOpenCh, execRtrReadRoute, execVcRead] at h
    split at h <;> cases h
  | rtrRoute d => exact absurd h execRtrRoute_not_refused
  | rtrAddRoute | linkInit | linkSetState | linkRead =>
    simp only [exec, execRtrAddRoute, execLinkInit, execLinkSetState, execLinkRead] at h
    split at h
    · cases h
    · split at h <;> cases h

/-- A started command that is refused for a broken section ended, and had read a byte written in the section. -/
theorem startCommand_criticalSection {w : Word} {s : State} (h : startCommand w s = .refused .criticalSection) :
    ∃ i u, decode w = .ok i ∧ s.hostSection.breaks (argsRead i) (readsOf i s u) = true := by
  by_cases hill : ∀ i, decode w ≠ .ok i
  · rw [startCommand_illegal hill] at h
    cases h
  obtain ⟨i, hw⟩ := not_forall_not.1 hill
  rw [startCommand_of_decode hw] at h
  cases ho : exec i (s.setCmd w) with
  | next u =>
    rw [ho, endCommand_next hw] at h
    split at h
    · exact ⟨i, u, hw, by assumption⟩
    · cases h
  | fault f =>
    rw [ho] at h
    cases h
  | refused r =>
    rw [ho] at h
    cases h
    obtain hr | hr := exec_refused ho <;> cases hr

/-! ### The host's own write of what the command reads -/

section breach
variable {s : State} {w : Word} {rest : List HostAction} {x : Nat} {ks : List (Fin 4)}
  (hmem : (x, ks) ∈ s.hostSection.written) (hx : s.arg0.toNat ≤ x) (hx' : x < s.arg0.toNat + s.arg1.toNat)
include hmem hx hx'

/-- A command that ends, reads the range, and names an operand the host wrote before the byte, is refused. -/
theorem step_command_breach {i : Instr} {t : State} {k : Fin 4} (hs : s.host = cmdWrite s.cfg w :: rest)
    (hw : decode w = .ok i) (ht : exec i ((s.setHost rest).setCmd w) = .next t)
    (hreads : readsOf i s t = [(s.arg0.toNat, s.arg1.toNat)]) (hk : k ∈ ks) (hnamed : k ∈ argsRead i) :
    step s = .refused .criticalSection := by
  have hbreaks : s.hostSection.breaks (argsRead i) (readsOf i s t) = true := by
    rw [hreads]
    exact (HostSection.breaks_iff _).2 ⟨x, ks, hmem, ⟨_, List.mem_singleton_self _, hx, hx'⟩, k, hk, hnamed⟩
  rw [step_command_next hs hw ht, if_pos hbreaks]

theorem step_crc16_breach (hs : s.host = cmdWrite s.cfg w :: rest) (hw : decode w = .ok .crc16) (h0 : s.arg0 ≠ 0)
    (ha : s.accessible s.arg0.toNat s.arg1.toNat = true) (hks : 0 ∈ ks ∨ 1 ∈ ks) :
    step s = .refused .criticalSection := by
  have ht := execCrc16_accessible (s := (s.setHost rest).setCmd w) h0 ha
  obtain hk | hk := hks <;> exact step_command_breach hmem hx hx' hs hw ht (readsOf_crc16 h0) hk (by decide)

theorem step_frameDec_breach (hs : s.host = cmdWrite s.cfg w :: rest) (hw : decode w = .ok .frameDec)
    (h0 : s.arg0 ≠ 0) (h4 : 4 ≤ s.arg1.toNat) (h5 : s.arg1.toNat ≤ 65539)
    (ha : s.accessible s.arg0.toNat s.arg1.toNat = true) (hks : 0 ∈ ks ∨ 1 ∈ ks) :
    step s = .refused .criticalSection := by
  obtain ⟨t, ht, hst⟩ := execFrameDec_accessible (s := (s.setHost rest).setCmd w) h0 h4 h5 ha
  obtain hk | hk := hks <;> exact step_command_breach hmem hx hx' hs hw ht (readsOf_frameDec hst) hk (by decide)

theorem step_frameEnc_breach {d p : Byte} (hs : s.host = cmdWrite s.cfg w :: rest)
    (hw : decode w = .ok (.frameEnc d p)) (h0 : s.arg0 ≠ 0) (h1 : s.arg1.toNat < 65536) (h2 : s.arg2 ≠ 0)
    (hc : s.arg1.toNat + 4 ≤ s.arg3.toNat)
    (ho : overlaps s.arg0.toNat s.arg1.toNat s.arg2.toNat (s.arg1.toNat + 4) = false)
    (hdest : s.accessible s.arg2.toNat (s.arg1.toNat + 4) = true)
    (ha : s.accessible s.arg0.toNat s.arg1.toNat = true) (hks : ks ≠ []) : step s = .refused .criticalSection := by
  obtain ⟨k, hk⟩ := List.exists_mem_of_ne_nil _ hks
  have ht := execFrameEnc_accessible d p (s := (s.setHost rest).setCmd w) h2 h1 (fun hnull => absurd hnull h0) hc ho hdest
    fun _ => ha
  exact step_command_breach hmem hx hx' hs hw ht (readsOf_frameEnc d p rfl h1) hk (mem_argsRead_frameEnc d p k)

end breach

theorem hostRegRead_overwritten {s : State} {off : BitVec 6} (hres : isResult off = true)
    (hover : s.hostSection.overwritten = true) : hostRegRead off s = .refused .criticalSection :=
  if_pos (Bool.and_eq_true_iff.2 ⟨hres, hover⟩)

/-- Settles O60: a command that ends is refused when the host wrote what it read (`step_command_breach`), a read of its
results too; and only such a command is (`startCommand_criticalSection`), because `exec` refuses for other reasons. -/
theorem hostWriteOfAReadBufferIsRefused : Obligations.HostWriteOfAReadBufferIsRefused := by
  unfold Obligations.HostWriteOfAReadBufferIsRefused
  refine fun s rest => ⟨fun x ks hmem hx hx' h0 ha => ⟨fun hks => ⟨fun hs => ?_, fun hs h4 h5 => ?_⟩,
    fun hks d p hs h2 h1 hc ho hdest => ?_⟩, fun off hover hoff hs => ?_, fun w hs hrefused => ?_⟩
  · exact step_crc16_breach hmem hx hx' hs decode_crc16 h0 ha hks
  · exact step_frameDec_breach hmem hx hx' hs decode_frameDec h0 h4 h5 ha hks
  · exact step_frameEnc_breach hmem hx hx' hs (decode_frameEnc d p) h0 h1 h2 hc ho hdest ha hks
  · have hal : off.extractLsb' 0 2 = 0 := by
      obtain rfl | rfl | rfl | rfl := hoff <;> rfl
    exact (step_regRead hal hs).trans (hostRegRead_overwritten (s := s.setHost rest) (isResult_iff.2 hoff) hover)
  · obtain ⟨i, u, hw, hbreaks⟩ := startCommand_criticalSection ((step_cmdWrite hs).symm.trans hrefused)
    obtain ⟨x, ks, hmem, ⟨r, hr, hx, hx'⟩, k, hk, hnamed⟩ := (HostSection.breaks_iff _).1 hbreaks
    obtain ⟨hi, hbase, hlen⟩ := mem_readsOf_range (s := s) hr
    exact ⟨i, hw, hi, x, ks, k, hmem, hk, hnamed, by omega, by omega⟩

end Sys2Proof.Machine
end
